-- ==== Sys2Proof/Word.lean ====
section
/-!
DEFINITION. The words of the block: bytes (R12), the 16-bit data value (R13, R96, R97) and frames as byte sequences in wire
order, index 0 first (R12).
-/

namespace Sys2Proof

/-- R12: an 8-bit unsigned value, bit 7 most significant. -/
abbrev Byte := BitVec 8

/-- R13, R22 to R24: a 16-bit unsigned value. -/
abbrev Half := BitVec 16

/-- R12: a frame is a finite sequence of bytes; index 0 is the first byte on the wire. -/
abbrev Frame := List Byte

end Sys2Proof
end

