-- ==== Sys2Proof/Config.lean ====
section
/-!
DEFINITION. The configuration record `Cfg` of `00_scope.md` R8 and the constants the source fixes. A field the spec marks OPEN
is a field of `Cfg`; `Cfg` is constant over a run (R9) and `State` carries it (log 1), so that a claim over all states is a
claim over every configuration.
-/

namespace Sys2Proof

/-- R8, R92: the start marker SOF. -/
def sof : Byte := 0x7E#8
/-- R8, R92: the end marker EOF. -/
def eof : Byte := 0xEF#8
/-- R8, R93: the version byte VER. -/
def ver : Byte := 0xFF#8
/-- R8, R93: the length byte LEN. -/
def len : Byte := 0x06#8
/-- R8, R94: the outbound feedback byte FB. -/
def fb : Byte := 0x01#8
/-- R8, R131: the largest volume that VOL_SET sends. -/
def volMax : Byte := 30#8

/-- `00_scope.md` R8: the implementation parameters. -/
structure Cfg where
  /-- R60: capacity of the receive buffer, at least 10. -/
  cap : Nat
  /-- R100: the ten response codes. -/
  rcMediaInserted : Byte
  rcPlayCompleted : Byte
  rcError : Byte
  rcAck : Byte
  rcStatus : Byte
  rcVolume : Byte
  rcTrackCount : Byte
  rcFolder : Byte
  rcFolderTrackCount : Byte
  rcFolderFile : Byte
  /-- R104: the fifteen command opcodes. -/
  opNext : Byte
  opPrev : Byte
  opPlayIndex : Byte
  opVolUp : Byte
  opVolDown : Byte
  opVolSet : Byte
  opSelectDevice : Byte
  opReset : Byte
  opPlay : Byte
  opPause : Byte
  opStop : Byte
  opPlayFolderFile : Byte
  opQueryStatus : Byte
  opQueryVolume : Byte
  opQueryTrack : Byte
  /-- R203: the three delays of INIT, in milliseconds. -/
  tStabilize : Half
  tAfterReset : Half
  tAfterSelect : Half
  /-- R133: data of the reset command. -/
  resetData : Half
  /-- R132, R203: data of the device-select command that INIT sends. -/
  selectData : Half
  /-- R201: which capabilities the transport collaborator provides. -/
  hasInit : Bool
  hasDeinit : Bool
  hasDelay : Bool
  hasSend : Bool
deriving DecidableEq, Repr

/-- R100: the closed set of response codes, in the order of the table. -/
def Cfg.responseCodes (c : Cfg) : List Byte :=
  [c.rcMediaInserted, c.rcPlayCompleted, c.rcError, c.rcAck, c.rcStatus, c.rcVolume, c.rcTrackCount, c.rcFolder,
   c.rcFolderTrackCount, c.rcFolderFile]

/-- R104: the fifteen named opcodes, in the order of the table. -/
def Cfg.opcodes (c : Cfg) : List Byte :=
  [c.opNext, c.opPrev, c.opPlayIndex, c.opVolUp, c.opVolDown, c.opVolSet, c.opSelectDevice, c.opReset, c.opPlay, c.opPause,
   c.opStop, c.opPlayFolderFile, c.opQueryStatus, c.opQueryVolume, c.opQueryTrack]

/-- R8, R60, R101: the constraints every admissible configuration satisfies: `CAP >= 10`; (a) the two codes the source gives;
(b) the ten codes pairwise distinct; (c) none equals 0x99; (d) none equals 0xEF. No constraint binds the opcodes (R105). -/
abbrev Cfg.Admissible (c : Cfg) : Prop :=
  10 ≤ c.cap ∧ c.rcVolume = 0x43#8 ∧ c.rcTrackCount = 0x48#8 ∧ c.responseCodes.Nodup ∧ 0x99#8 ∉ c.responseCodes ∧
    eof ∉ c.responseCodes

/-- FREE VALUE (log 3). R8: T_STABILIZE is OPEN, with no default and no number in the source (N6). -/
opaque Config.stabilizeDelay : Half
/-- FREE VALUE (log 3). R8: T_AFTER_RESET is OPEN. -/
opaque Config.afterResetDelay : Half
/-- FREE VALUE (log 3). R8: T_AFTER_SELECT is OPEN. -/
opaque Config.afterSelectDelay : Half

/-- The default configuration (log 2). R60: CAP 10; R100 and R104: the default columns; R132, R133: default data; the four
capabilities present, as the test vectors of `95_test_vectors.md` assume; the three delays free (log 3). -/
def Config.default : Cfg where
  cap := 10
  rcMediaInserted := 0x3A#8
  rcPlayCompleted := 0x3D#8
  rcError := 0x40#8
  rcAck := 0x41#8
  rcStatus := 0x42#8
  rcVolume := 0x43#8
  rcTrackCount := 0x48#8
  rcFolder := 0x4F#8
  rcFolderTrackCount := 0x4E#8
  rcFolderFile := 0x4C#8
  opNext := 0x01#8
  opPrev := 0x02#8
  opPlayIndex := 0x03#8
  opVolUp := 0x04#8
  opVolDown := 0x05#8
  opVolSet := 0x06#8
  opSelectDevice := 0x09#8
  opReset := 0x0C#8
  opPlay := 0x0D#8
  opPause := 0x0E#8
  opStop := 0x16#8
  opPlayFolderFile := 0x0F#8
  opQueryStatus := 0x42#8
  opQueryVolume := 0x43#8
  opQueryTrack := 0x48#8
  tStabilize := Config.stabilizeDelay
  tAfterReset := Config.afterResetDelay
  tAfterSelect := Config.afterSelectDelay
  resetData := 0x0000#16
  selectData := 0x0002#16
  hasInit := true
  hasDeinit := true
  hasDelay := true
  hasSend := true

end Sys2Proof
end

