-- ==== Sys2Proof/Syntax.lean ====
section
/-!
DEFINITION. The operations of the block as syntax: one constructor per row of `spec/opcode_table.json`, the framer state that
tells the byte rows apart, and the words in which an operation is presented.
-/

namespace Sys2Proof

/-- R30, R150: the framer's two states. -/
inductive FState where
  | idle
  | inFrame
deriving DecidableEq, Repr

/-- R91: the bytes of a nominal inbound frame other than the two markers and the code: indices 1, 2, 4 (ignored, R93, R94),
5 and 6 (the data, R97), 7 and 8 (reserved, R103). All seven are kept, so that no byte of a frame is dropped. -/
structure RxFields where
  version : Byte
  length : Byte
  feedback : Byte
  hi : Byte
  lo : Byte
  rsv7 : Byte
  rsv8 : Byte
deriving DecidableEq, Repr

/-- One constructor per row of the opcode table. -/
inductive Instr where
  /-- R122 -/
  | send (op hi lo : Byte)
  /-- R126 -/
  | next
  /-- R127 -/
  | prev
  /-- R128 -/
  | playIndex (n : Half)
  /-- R129 -/
  | volUp
  /-- R130 -/
  | volDown
  /-- R131 -/
  | volSet (v : Byte)
  /-- R132 -/
  | selectDevice (d : Half)
  /-- R133 -/
  | reset
  /-- R134 -/
  | play
  /-- R135 -/
  | pause
  /-- R137 -/
  | playFolderFile (f n : Byte)
  /-- R136 -/
  | stop
  /-- R138 -/
  | queryStatus
  /-- R139 -/
  | queryVolume
  /-- R140 -/
  | queryTrack
  /-- R173 -/
  | rspMediaInserted (f : RxFields)
  /-- R174 -/
  | rspPlayCompleted (f : RxFields)
  /-- R175 -/
  | rspError (f : RxFields)
  /-- R176 -/
  | rspAck (f : RxFields)
  /-- R177 -/
  | rspStatus (f : RxFields)
  /-- R178 -/
  | rspVolume (f : RxFields)
  /-- R179 -/
  | rspTrackCount (f : RxFields)
  /-- R180 -/
  | rspFolder (f : RxFields)
  /-- R181 -/
  | rspFolderTrackCount (f : RxFields)
  /-- R182 -/
  | rspFolderFile (f : RxFields)
  /-- R183 -/
  | rspUnrecognized (code : Byte) (f : RxFields)
  /-- R151 -/
  | byteSofIdle
  /-- R152 -/
  | byteStrayIdle (b : Byte)
  /-- R154, R156 -/
  | byteEofInframe
  /-- R153 -/
  | bytePayloadInframe (b : Byte)
  /-- R155 -/
  | bytePayloadOverflow (b : Byte)
  /-- R120 -/
  | encode (op hi lo : Byte)
  /-- R203 -/
  | init
  /-- R207 -/
  | deinit
deriving DecidableEq, Repr

/-- The word in which an operation is presented: the bytes of its row of the opcode table (formats TX8, RX10, BYTE, CMD24:
eight, ten, one or three bytes), or one of the two requests, which have no encoding (R107, format `none`). -/
inductive Request where
  | bytes (bs : List Byte)
  | initReq
  | deinitReq
deriving DecidableEq, Repr

/-- What the framer contributes to reading a byte (R98, R155): its state and cursor. -/
structure FramerView where
  fstate : FState
  cursor : Nat
deriving DecidableEq, Repr

end Sys2Proof
end

