-- ==== Sys2Proof/WellFormed.lean ====
section
/-!
DEFINITION. Which instructions are instances of their row of the opcode table. `exec` does not consult this: an operation that
is no instance of a row still runs as its rule says; the checks say which words decode to what.
-/

namespace Sys2Proof

/-- The operand constraints of the table's fallback rows (R107): RSP_UNRECOGNIZED has a code outside the set of R100;
BYTE_STRAY_IDLE any byte but 0x7E (R152); BYTE_PAYLOAD_INFRAME and BYTE_PAYLOAD_OVERFLOW any byte but 0xEF (R153, R155).
Every other operand is free (R105, R91, R131). -/
def Instr.wellFormed (c : Cfg) : Instr → Bool
  | .send _ _ _ => true
  | .next => true
  | .prev => true
  | .playIndex _ => true
  | .volUp => true
  | .volDown => true
  | .volSet _ => true
  | .selectDevice _ => true
  | .reset => true
  | .play => true
  | .pause => true
  | .playFolderFile _ _ => true
  | .stop => true
  | .queryStatus => true
  | .queryVolume => true
  | .queryTrack => true
  | .rspMediaInserted _ => true
  | .rspPlayCompleted _ => true
  | .rspError _ => true
  | .rspAck _ => true
  | .rspStatus _ => true
  | .rspVolume _ => true
  | .rspTrackCount _ => true
  | .rspFolder _ => true
  | .rspFolderTrackCount _ => true
  | .rspFolderFile _ => true
  | .rspUnrecognized code _ => decide (code ∉ c.responseCodes)
  | .byteSofIdle => true
  | .byteStrayIdle b => decide (b ≠ sof)
  | .byteEofInframe => true
  | .bytePayloadInframe b => decide (b ≠ eof)
  | .bytePayloadOverflow b => decide (b ≠ eof)
  | .encode _ _ _ => true
  | .init => true
  | .deinit => true

/-- R18, R91: a nominal inbound frame has no 0xEF among the bytes at indices 1 to 8. -/
abbrev RxFields.Nominal (f : RxFields) (code : Byte) : Prop :=
  f.version ≠ eof ∧ f.length ≠ eof ∧ code ≠ eof ∧ f.feedback ≠ eof ∧ f.hi ≠ eof ∧ f.lo ≠ eof ∧ f.rsv7 ≠ eof ∧ f.rsv8 ≠ eof

/-- The framer state in which a byte row applies (the table's key `state`, R98, R155); every other row applies in any. -/
def Instr.rowApplies (c : Cfg) (v : FramerView) : Instr → Bool
  | .byteSofIdle => decide (v.fstate = .idle)
  | .byteStrayIdle _ => decide (v.fstate = .idle)
  | .byteEofInframe => decide (v.fstate = .inFrame)
  | .bytePayloadInframe _ => decide (v.fstate = .inFrame ∧ v.cursor + 1 ≠ c.cap)
  | .bytePayloadOverflow _ => decide (v.fstate = .inFrame ∧ v.cursor + 1 = c.cap)
  | _ => true

end Sys2Proof
end

