-- ==== Sys2Proof/Machine/Operands.lean ====
section
/-!
DEFINITION. Operand assembly and frame layouts: the 16-bit data value and its two bytes (R13, R73, R96, R97), the clamp of
VOL_SET (R131), the outbound frame (R90, R120) and the nominal inbound frame (R91).
-/

namespace Sys2Proof.Machine

/-- R13, R73: `hi:lo = 256*hi + lo`, high byte in bits 15 to 8. -/
def joinBytes (hi lo : Byte) : Half := hi ++ lo

/-- R13, R96: `v[15:8]`. -/
def hiByte (v : Half) : Byte := v.extractLsb' 8 8

/-- R13, R96: `v[7:0]`. -/
def loByte (v : Half) : Byte := v.extractLsb' 0 8

/-- R131: `min(v, 30)`. -/
def clampVolume (v : Byte) : Byte := if v ≤ volMax then v else volMax

/-- R120: `ENCODE(op, hi, lo)`, format TX8 of R90. Pure and total (R121). -/
def encodeFrame (op hi lo : Byte) : Frame := [sof, ver, len, op, fb, hi, lo, eof]

/-- R91: the ten bytes of a nominal inbound frame with response code `code`. -/
def rxFrame (code : Byte) (f : RxFields) : Frame :=
  [sof, f.version, f.length, code, f.feedback, f.hi, f.lo, f.rsv7, f.rsv8, eof]

/-- R90, R91, R107: the big-endian number of a byte sequence, byte index 0 most significant. -/
def frameValue : Frame → Nat
  | [] => 0
  | b :: bs => b.toNat * 256 ^ bs.length + frameValue bs

end Sys2Proof.Machine
end

