-- ==== Sys2Proof/Decode.lean ====
section
/-!
DEFINITION. Reading presented words as instructions, total on any bytes, and writing instructions as words. R107: a frame
matches a row when `(frame AND mask) = match`; fallback rows apply only where no earlier row of the format does, and a named
command refines the generic SEND row.
-/

namespace Sys2Proof

open Machine (encodeFrame rxFrame hiByte loByte joinBytes clampVolume)

/-- Why a presented word is no instance of a row of the opcode table. -/
inductive DecodeError where
  /-- no format of the table has this many bytes (R90, R91, R95, R98 have 8, 10, 3 and 1) -/
  | noFormat (bytes : Nat)
  /-- eight bytes whose constant positions are not those of format TX8 (R90) -/
  | txConstants
  /-- ten bytes that do not begin with 0x7E and end with 0xEF (R91) -/
  | rxMarkers
deriving DecidableEq, Repr

/-- R98: the row of format BYTE for a received byte, by the framer's state; R155: on a full buffer a payload byte is the
overflow row, selected by the cursor; R156: the end marker comes before the capacity check. -/
def decodeByte (c : Cfg) (v : FramerView) (b : Byte) : Instr :=
  match v.fstate with
  | .idle => if b = sof then .byteSofIdle else .byteStrayIdle b
  | .inFrame =>
    if b = eof then .byteEofInframe
    else if v.cursor + 1 = c.cap then .bytePayloadOverflow b
    else .bytePayloadInframe b

/-- The last rows of `decodeCommand`. -/
def decodeCommandEnd (c : Cfg) (op hi lo : Byte) : Instr :=
  if op = c.opPlayFolderFile then .playFolderFile hi lo
  else if op = c.opStop ∧ hi = 0 ∧ lo = 0 then .stop
  else if op = c.opQueryStatus ∧ hi = 0 ∧ lo = 0 then .queryStatus
  else if op = c.opQueryVolume ∧ hi = 0 ∧ lo = 0 then .queryVolume
  else if op = c.opQueryTrack ∧ hi = 0 ∧ lo = 0 then .queryTrack
  else .send op hi lo

/-- The middle rows of `decodeCommand`. -/
def decodeCommandMiddle (c : Cfg) (op hi lo : Byte) : Instr :=
  if op = c.opVolSet ∧ hi = 0 ∧ lo ≤ volMax then .volSet lo
  else if op = c.opSelectDevice then .selectDevice (joinBytes hi lo)
  else if op = c.opReset ∧ joinBytes hi lo = c.resetData then .reset
  else if op = c.opPlay ∧ hi = 0 ∧ lo = 0 then .play
  else if op = c.opPause ∧ hi = 0 ∧ lo = 0 then .pause
  else decodeCommandEnd c op hi lo

/-- R104, R107: the TX8 row of an outbound frame with these three free bytes: the first named row in the table's order that
emits exactly this frame, else the generic SEND (log 25). -/
def decodeCommand (c : Cfg) (op hi lo : Byte) : Instr :=
  if op = c.opNext ∧ hi = 0 ∧ lo = 0 then .next
  else if op = c.opPrev ∧ hi = 0 ∧ lo = 0 then .prev
  else if op = c.opPlayIndex then .playIndex (joinBytes hi lo)
  else if op = c.opVolUp ∧ hi = 0 ∧ lo = 0 then .volUp
  else if op = c.opVolDown ∧ hi = 0 ∧ lo = 0 then .volDown
  else decodeCommandMiddle c op hi lo

/-- R100, R102, R107: the RX10 row of an inbound frame, by the byte at index 3. -/
def decodeResponse (c : Cfg) (code : Byte) (f : RxFields) : Instr :=
  if code = c.rcMediaInserted then .rspMediaInserted f
  else if code = c.rcPlayCompleted then .rspPlayCompleted f
  else if code = c.rcError then .rspError f
  else if code = c.rcAck then .rspAck f
  else if code = c.rcStatus then .rspStatus f
  else if code = c.rcVolume then .rspVolume f
  else if code = c.rcTrackCount then .rspTrackCount f
  else if code = c.rcFolder then .rspFolder f
  else if code = c.rcFolderTrackCount then .rspFolderTrackCount f
  else if code = c.rcFolderFile then .rspFolderFile f
  else .rspUnrecognized code f

/-- The instruction that a presented word stands for, under a configuration and in a framer state. Total. -/
def decode (c : Cfg) (v : FramerView) : Request → Except DecodeError Instr
  | .initReq => .ok .init
  | .deinitReq => .ok .deinit
  | .bytes [b] => .ok (decodeByte c v b)
  | .bytes [op, hi, lo] => .ok (.encode op hi lo)
  | .bytes [b0, b1, b2, b3, b4, b5, b6, b7] =>
    if b0 = sof ∧ b1 = ver ∧ b2 = len ∧ b4 = fb ∧ b7 = eof then .ok (decodeCommand c b3 b5 b6)
    else .error .txConstants
  | .bytes [b0, b1, b2, b3, b4, b5, b6, b7, b8, b9] =>
    if b0 = sof ∧ b9 = eof then .ok (decodeResponse c b3 ⟨b1, b2, b4, b5, b6, b7, b8⟩)
    else .error .rxMarkers
  | .bytes bs => .error (.noFormat bs.length)

/-- The word of an instruction, from the table's encodings: a command as the frame it emits (R90, R104), a response as its
ten bytes (R91), a byte row as its byte, ENCODE as its CMD24 word (R95), INIT and DEINIT as their requests (R107). -/
def encode (c : Cfg) : Instr → Request
  | .send op hi lo => .bytes (encodeFrame op hi lo)
  | .next => .bytes (encodeFrame c.opNext 0 0)
  | .prev => .bytes (encodeFrame c.opPrev 0 0)
  | .playIndex n => .bytes (encodeFrame c.opPlayIndex (hiByte n) (loByte n))
  | .volUp => .bytes (encodeFrame c.opVolUp 0 0)
  | .volDown => .bytes (encodeFrame c.opVolDown 0 0)
  | .volSet v => .bytes (encodeFrame c.opVolSet 0 (clampVolume v))
  | .selectDevice d => .bytes (encodeFrame c.opSelectDevice (hiByte d) (loByte d))
  | .reset => .bytes (encodeFrame c.opReset (hiByte c.resetData) (loByte c.resetData))
  | .play => .bytes (encodeFrame c.opPlay 0 0)
  | .pause => .bytes (encodeFrame c.opPause 0 0)
  | .playFolderFile f n => .bytes (encodeFrame c.opPlayFolderFile f n)
  | .stop => .bytes (encodeFrame c.opStop 0 0)
  | .queryStatus => .bytes (encodeFrame c.opQueryStatus 0 0)
  | .queryVolume => .bytes (encodeFrame c.opQueryVolume 0 0)
  | .queryTrack => .bytes (encodeFrame c.opQueryTrack 0 0)
  | .rspMediaInserted f => .bytes (rxFrame c.rcMediaInserted f)
  | .rspPlayCompleted f => .bytes (rxFrame c.rcPlayCompleted f)
  | .rspError f => .bytes (rxFrame c.rcError f)
  | .rspAck f => .bytes (rxFrame c.rcAck f)
  | .rspStatus f => .bytes (rxFrame c.rcStatus f)
  | .rspVolume f => .bytes (rxFrame c.rcVolume f)
  | .rspTrackCount f => .bytes (rxFrame c.rcTrackCount f)
  | .rspFolder f => .bytes (rxFrame c.rcFolder f)
  | .rspFolderTrackCount f => .bytes (rxFrame c.rcFolderTrackCount f)
  | .rspFolderFile f => .bytes (rxFrame c.rcFolderFile f)
  | .rspUnrecognized code f => .bytes (rxFrame code f)
  | .byteSofIdle => .bytes [sof]
  | .byteStrayIdle b => .bytes [b]
  | .byteEofInframe => .bytes [eof]
  | .bytePayloadInframe b => .bytes [b]
  | .bytePayloadOverflow b => .bytes [b]
  | .encode op hi lo => .bytes [op, hi, lo]
  | .init => .initReq
  | .deinit => .deinitReq

/-- R104: the opcodes of the commands that carry no operand and send data 0x0000. -/
def Cfg.zeroDataOpcodes (c : Cfg) : List Byte :=
  [c.opNext, c.opPrev, c.opVolUp, c.opVolDown, c.opPlay, c.opPause, c.opStop, c.opQueryStatus, c.opQueryVolume, c.opQueryTrack]

/-- R104, R107: some named row of format TX8 emits the frame with these three free bytes. -/
abbrev NamedRow (c : Cfg) (op hi lo : Byte) : Prop :=
  (op ∈ c.zeroDataOpcodes ∧ hi = 0 ∧ lo = 0) ∨ op = c.opPlayIndex ∨ op = c.opSelectDevice ∨ op = c.opPlayFolderFile ∨
    (op = c.opVolSet ∧ hi = 0 ∧ lo ≤ volMax) ∨ (op = c.opReset ∧ joinBytes hi lo = c.resetData)

/-- The instructions that a word stands for one to one: a generic SEND of a named command's bytes has that command's word
(R107), and VOL_SET 31 to 255 has the word of VOL_SET 30 (R131). -/
abbrev Instr.Canonical (c : Cfg) : Instr → Prop
  | .send op hi lo => ¬ NamedRow c op hi lo
  | .volSet v => v ≤ volMax
  | _ => True

/-- The `n` bytes of a number, most significant first: the numbering of R90, R91, R95 and R107. -/
def beBytes : Nat → Nat → List Byte
  | 0, _ => []
  | n + 1, w => BitVec.ofNat 8 (w / 256 ^ n) :: beBytes n w

/-- The bytes of a table word of `nbits` bits, in wire order: the table's numbers are big-endian frame values (R107; log 26). -/
def tableBytes (nbits w : Nat) : List Byte := beBytes (nbits / 8) w

/-- The framer state in which a lone byte is read as a table word: 0xEF is the end marker of a frame in progress, every other
byte is read in Idle (R98; log 6). -/
def tableView (bs : List Byte) : FramerView :=
  if bs = [eof] then ⟨.inFrame, 1⟩ else ⟨.idle, 0⟩

/-- The instruction of a word of the opcode table, under the default configuration. -/
def decodeTableWord (nbits w : Nat) : Option Instr :=
  match decode Config.default (tableView (tableBytes nbits w)) (.bytes (tableBytes nbits w)) with
  | .ok i => some i
  | .error _ => none

end Sys2Proof
end

