-- ==== Sys2Proof/Machine/State.lean ====
section
/-!
DEFINITION. The state of one handler (R20, R236) as plain data, the state right after hardware reset (R39, R250), and the
reasons a step can stop.
-/

namespace Sys2Proof.Machine

/-- R34, R200: the lifecycle state; a record, not a gate. -/
inductive HState where
  | uninitialized
  | ready
deriving DecidableEq, Repr

/-- R33, R72, R203, R207: what the lifecycle sequencer is waiting for. -/
inductive Seq where
  /-- nothing runs -/
  | idle
  /-- INIT: the answer to HookInit -/
  | initHook
  /-- INIT: the answer to Delay(T_STABILIZE) -/
  | initStabilize
  /-- INIT: the answer to the handoff of the reset command -/
  | initReset
  /-- INIT: the answer to Delay(T_AFTER_RESET) -/
  | initAfterReset
  /-- INIT: the answer to the handoff of the device-select command -/
  | initSelect
  /-- INIT: the answer to Delay(T_AFTER_SELECT) -/
  | initAfterSelect
  /-- DEINIT: the answer to HookDeinit -/
  | deinitHook
deriving DecidableEq, Repr

/-- R220, R225: the results of SEND, the named commands, INIT and DEINIT. -/
inductive Status where
  | ok
  | invalidParameter
  | transportError
deriving DecidableEq, Repr

/-- R158: the results of FEED. -/
inductive FeedResult where
  | cont
  | frameReady
  | frameError
deriving DecidableEq, Repr

/-- R225: the results of PARSE. -/
inductive ParseResult where
  | ok
  | unrecognizedResponse
deriving DecidableEq, Repr

/-- R14: what the transport collaborator answers to a handoff, a hook or a delay. -/
inductive Answer where
  | ok
  | fail
deriving DecidableEq, Repr

/-- R225: what an operation returns to the host: a result, or the frame of ENCODE. -/
inductive HostResult where
  | status (r : Status)
  | frame (f : Frame)
deriving DecidableEq, Repr

/-- R14: the calls the block makes on the transport collaborator. -/
inductive Call where
  | hookInit
  | hookDeinit
  | delay (ms : Half)
  | handoff (f : Frame)
deriving DecidableEq, Repr

/-- R67, R95: the sampled operands of a command. -/
structure Command where
  op : Byte
  hi : Byte
  lo : Byte
deriving DecidableEq, Repr

/-- R67, R70, R72, R229: the registered one-cycle outputs; `none` while the pulse is 0. -/
structure Pulses where
  cmdDone : Option Status
  feedDone : Option FeedResult
  lifeDone : Option Status
deriving DecidableEq, Repr

/-- No output pulse. -/
def Pulses.none : Pulses := ⟨Option.none, Option.none, Option.none⟩

/-- R66 to R72: the levels of all input pins in one clock cycle. The straps `has_*` are fields of `Cfg` (R72, R201). -/
structure PortIn where
  rst : Bool := false
  cmdValid : Bool := false
  cmdOp : Byte := 0
  cmdHi : Byte := 0
  cmdLo : Byte := 0
  txAck : Bool := false
  txNak : Bool := false
  rxValid : Bool := false
  rxByte : Byte := 0
  initReq : Bool := false
  deinitReq : Bool := false
  hookAck : Bool := false
  hookNak : Bool := false
  delayAck : Bool := false
  delayNak : Bool := false
deriving DecidableEq, Repr

/-- R10, R65: what the agents present to the block; one event is one step. -/
inductive Event where
  /-- an operation presented as its word of the opcode table; a received byte is the word of its one byte -/
  | word (r : Request)
  /-- an operation invoked by its name (R65, R108) -/
  | call (i : Instr)
  /-- a late answer of the transport to the outstanding handoff, hook or delay (R65, R141) -/
  | reply (a : Answer)
  /-- one rising edge of `clk` with these input levels (R66) -/
  | edge (p : PortIn)
deriving DecidableEq, Repr

/-- R60: the receive buffer as cells in one canonical form; an unlisted cell reads 0x00, its hardware-reset value (R39). -/
abbrev Memory := List Host.Cell

/-- R20: the complete state of one handler, with the port-level and sequencer registers (R33, R67 to R72), the configuration
(log 1), the environment (log 4, log 5) and the histories of R41 (log 10). -/
structure State where
  /-- R22 -/
  volume : Half
  /-- R23 -/
  track : Half
  /-- R24 -/
  status : Half
  /-- R25: flag -/
  media : Bool
  /-- R26 -/
  lastCmdOp : Byte
  /-- R26 -/
  lastCmdData : Half
  /-- R27 -/
  lastRspCode : Byte
  /-- R27 -/
  lastRspData : Half
  /-- R28: flag -/
  lastRspValid : Bool
  /-- R30 -/
  fstate : FState
  /-- R31 -/
  cursor : Nat
  /-- R35, R60 -/
  buf : Memory
  /-- R34 -/
  hstate : HState
  /-- R36 -/
  txBusy : Bool
  /-- R67: operands sampled when a command was accepted; `tx_frame` is their frame (R68) -/
  txCmd : Command
  /-- R33, R72 -/
  seq : Seq
  /-- R67, R70, R72 -/
  pulses : Pulses
  /-- R8, R9: constant over a run -/
  cfg : Cfg
  /-- R10, R77: what the agents present, oldest first -/
  agenda : List Event
  /-- R10, R14: answers the transport gives at once to the next calls, oldest first -/
  replies : List Answer
  /-- R41: frames whose handoff answered ok, oldest first -/
  txLog : List Frame
  /-- R41: results of FEED, oldest first -/
  feedLog : List FeedResult
  /-- R225: results returned to the host, oldest first -/
  hostLog : List HostResult
  /-- R203: calls made on the transport collaborator, oldest first -/
  calls : List Call
deriving DecidableEq, Repr

/-- R39, column "hardware reset", and R250: every register zero, Idle, Uninitialized; nothing presented, nothing logged; the
default configuration (log 2). -/
def State.reset : State where
  volume := 0
  track := 0
  status := 0
  media := false
  lastCmdOp := 0
  lastCmdData := 0
  lastRspCode := 0
  lastRspData := 0
  lastRspValid := false
  fstate := .idle
  cursor := 0
  buf := []
  hstate := .uninitialized
  txBusy := false
  txCmd := ⟨0, 0, 0⟩
  seq := .idle
  pulses := Pulses.none
  cfg := Config.default
  agenda := []
  replies := []
  txLog := []
  feedLog := []
  hostLog := []
  calls := []

/-- The one reason the machine faults. -/
inductive Fault where
  /-- raised by FEED and PARSE on a buffer cell that does not exist, an index not below CAP (R60, R153); safe: it happens in no
  state that keeps R32 under an admissible configuration -/
  | noSuchCell (index : Nat)
deriving DecidableEq, Repr

/-- The reasons an operation is refused. -/
inductive Refusal where
  /-- raised by exec's arm of an instruction without a meaning; safe -/
  | notModelled (mnemonic : String)
  /-- raised by SEND and the named commands while `cmd_ready` is 0: a caller that bypasses the handshake (R260, U6: refuse);
  safe -/
  | commandNotReady
  /-- raised by INIT while `hstate` is Ready (R206, U4: refuse); safe -/
  | initWhileReady
  /-- raised by step on a presented word that is no instance of a row of the opcode table (R107); safe -/
  | noSuchWord (e : DecodeError)
deriving DecidableEq, Repr

end Sys2Proof.Machine
end

