-- ==== Sys2Proof/Machine/Flags.lean ====
section
/-!
DEFINITION. Every flag computation of the block (R37): `media` and `last_rsp_valid`, with the last-response fields that
`last_rsp_valid` qualifies (R27, R28).
-/

namespace Sys2Proof.Machine

/-- R25, R173: `media <- 1`. -/
def State.setMedia (s : State) : State := { s with media := true }

/-- R171: `last_rsp_code <- code`, `last_rsp_data <- data`, `last_rsp_valid <- 1`. -/
def State.recordResponse (code : Byte) (data : Half) (s : State) : State :=
  { s with lastRspCode := code, lastRspData := data, lastRspValid := true }

/-- R124: the last-response fields of "no response observed yet for this command". -/
def State.clearResponse (s : State) : State :=
  { s with lastRspCode := 0, lastRspData := 0, lastRspValid := false }

end Sys2Proof.Machine
end

