-- ==== Sys2Proof/Machine/Ops.lean ====
section
/-!
DEFINITION. The named operations over the receive buffer, the results and the resets. The block has no trap entry and no trap
return (R231, R232): what the spec has in their place is the return of a result, here the `emit` operations, one per kind of
result, shared by every operation that returns one.
-/

namespace Sys2Proof.Machine

/-! ### The receive buffer (R60 to R63) -/

/-- R39: what a cell reads as that nothing has written since hardware reset. -/
def unwrittenCell : Byte := 0

/-- R62: the byte at an index. -/
def Memory.read (m : Memory) (a : Nat) : Byte :=
  match m with
  | [] => unwrittenCell
  | (k, v) :: rest => if k = a then v else Memory.read rest a

/-- Drop the cell at an index. -/
def Memory.erase (m : Memory) (a : Nat) : Memory :=
  match m with
  | [] => []
  | (k, v) :: rest => if k = a then rest else (k, v) :: Memory.erase rest a

/-- Put a cell at its place in ascending order. -/
def Memory.insert (m : Memory) (a : Nat) (b : Byte) : Memory :=
  match m with
  | [] => [(a, b)]
  | (k, v) :: rest =>
    if a < k then (a, b) :: (k, v) :: rest
    else if a = k then (a, b) :: rest
    else (k, v) :: Memory.insert rest a b

/-- R62, R63: write one byte. Writing what an unlisted cell reads as removes the cell, so that equal buffers are equal lists. -/
def Memory.write (m : Memory) (a : Nat) (b : Byte) : Memory :=
  if b = unwrittenCell then m.erase a else m.insert a b

/-- The canonical form: strictly rising indices, no cell that holds what an unlisted cell reads as. -/
def Memory.wf : Memory → Bool
  | [] => true
  | [(_, v)] => v != unwrittenCell
  | (k, v) :: (k', v') :: rest => v != unwrittenCell && decide (k < k') && Memory.wf ((k', v') :: rest)

/-- R60: every listed cell lies in `buf[0..CAP-1]`. -/
def Memory.within (m : Memory) (cap : Nat) : Bool := m.all fun c => decide (c.1 < cap)

/-- R62: `buf[a]`; a cell that does not exist faults (log 12). -/
def readBuf (s : State) (a : Nat) : Except Fault Byte :=
  if a < s.cfg.cap then .ok (s.buf.read a) else .error (.noSuchCell a)

/-- R62: `buf[a] <- b`; a cell that does not exist faults (log 12). -/
def writeBuf (a : Nat) (b : Byte) (s : State) : Except Fault State :=
  if a < s.cfg.cap then .ok { s with buf := s.buf.write a b } else .error (.noSuchCell a)

/-! ### Results (R220 to R227, R231) -/

/-- R158, R70: the result of a FEED step. -/
def emitFeed (r : FeedResult) (s : State) : State :=
  { s with feedLog := s.feedLog ++ [r], pulses := { s.pulses with feedDone := some r } }

/-- R122, R67: the result of a SEND of the host. -/
def emitCommand (r : Status) (s : State) : State :=
  { s with hostLog := s.hostLog ++ [.status r], pulses := { s.pulses with cmdDone := some r } }

/-- R203, R207, R72: the result of INIT or DEINIT; the sequencer is idle again. -/
def emitLifecycle (r : Status) (s : State) : State :=
  { s with hostLog := s.hostLog ++ [.status r], pulses := { s.pulses with lifeDone := some r }, seq := .idle }

/-- R225: the result of ENCODE. -/
def emitFrame (f : Frame) (s : State) : State := { s with hostLog := s.hostLog ++ [.frame f] }

/-- A call on the transport collaborator (R14, R203). -/
def logCall (k : Call) (s : State) : State := { s with calls := s.calls ++ [k] }

/-! ### Resets (R39) -/

/-- R39, columns "INIT start" and "DEINIT", the fields the two columns reset alike: Device State, `fstate`, `cursor`. The
cells of `buf` and `hstate` are not touched (R205, R207). -/
def resetHandler (s : State) : State :=
  { s with
    volume := 0, track := 0, status := 0, media := false, lastCmdOp := 0, lastCmdData := 0, lastRspCode := 0,
    lastRspData := 0, lastRspValid := false, fstate := .idle, cursor := 0 }

/-- R66, R250: hardware reset. Every register takes its reset value; the configuration, the environment and the histories are
no registers and stay. The pulses are registers and are cleared too (log 11), so none shows after the edge. -/
def hardwareReset (s : State) : State :=
  { State.reset with
    cfg := s.cfg, agenda := s.agenda, replies := s.replies, txLog := s.txLog, feedLog := s.feedLog, hostLog := s.hostLog,
    calls := s.calls }

/-! ### Outcomes -/

/-- An operation that can only fault, as an outcome of a step. -/
def outcomeOf : Except Fault State → Host.Outcome State Fault Refusal
  | .ok s => .next s
  | .error f => .fault f

end Sys2Proof.Machine
end

