-- ==== Sys2Proof/Machine/Transport.lean ====
section
/-!
DEFINITION. The block's side of the TX frame channel and of the capability channel (R65, R68, R72, R201): presenting a frame,
committing a SEND, the lifecycle sequencer's positions, and what each answer of the transport does. A position is left only by
an answer; while none has come, the block waits and FEED goes on (R141, R211).
-/

namespace Sys2Proof.Machine

/-- R67, R72: `cmd_ready` is 1 exactly when `tx_busy` is 0 and the sequencer is idle. -/
def cmdReady (s : State) : Bool := !s.txBusy && decide (s.seq = .idle)

/-- R67, R68, R120: the operands are sampled, `tx_busy` rises, and the frame is handed to the TX transport. -/
def presentFrame (op hi lo : Byte) (s : State) : State :=
  logCall (.handoff (encodeFrame op hi lo)) { s with txBusy := true, txCmd := ⟨op, hi, lo⟩ }

/-- R68: `tx_valid`: a frame stands on the TX port. While a command without the send capability completes, `tx_busy` is 1 and
nothing is presented (R67; log 19). -/
def txValid (s : State) : Bool := s.txBusy && s.cfg.hasSend

/-- R122, R125: a SEND of the host at transaction level: without the send capability `InvalidParameter` and nothing else,
otherwise the frame is presented. -/
def acceptSend (op hi lo : Byte) (s : State) : State :=
  if s.cfg.hasSend then presentFrame op hi lo s else emitCommand .invalidParameter s

/-- R67: a command accepted on the port: the operands are sampled and `tx_busy` rises whatever the capability. Without it
nothing is presented and the command completes in the next cycle with `InvalidParameter` (log 19). -/
def acceptCommand (op hi lo : Byte) (s : State) : State :=
  if s.cfg.hasSend then presentFrame op hi lo s
  else emitCommand .invalidParameter { s with txBusy := true, txCmd := ⟨op, hi, lo⟩ }

/-- R67, R36: the end of the cycle in which a command without the send capability completes: `tx_busy` falls, there being no
handoff that would end it. With the capability nothing changes (log 19). -/
def endRejection (s : State) : State := { s with txBusy := s.txBusy && s.cfg.hasSend }

/-- R124: the bookkeeping of a successful handoff, with the frame on the TX log (R41). The operand latch stays
(log 23). -/
def commitSend (s : State) : State :=
  { s.clearResponse with
    lastCmdOp := s.txCmd.op, lastCmdData := joinBytes s.txCmd.hi s.txCmd.lo, txBusy := false,
    txLog := s.txLog ++ [encodeFrame s.txCmd.op s.txCmd.hi s.txCmd.lo] }

/-- R203, R210: `Delay(ms)`; the sequencer waits at a position for its answer (log 30). -/
def beginDelay (position : Seq) (ms : Half) (s : State) : State :=
  logCall (.delay ms) { s with seq := position }

/-- R203, R204: a SEND of INIT; if it cannot be handed off INIT ends with `TransportError` (log 18, log 27). -/
def initSend (position : Seq) (op : Byte) (data : Half) (s : State) : State :=
  if s.cfg.hasSend then presentFrame op (hiByte data) (loByte data) { s with seq := position }
  else emitLifecycle .transportError s

/-- R202, R203, R205: the start of INIT: the capability check, the reset of R39's column "INIT start", then the hook, or the
stabilisation delay where there is no hook (R209). -/
def acceptInit (s : State) : State :=
  if s.cfg.hasDelay ∧ s.cfg.hasSend then
    if s.cfg.hasInit then logCall .hookInit { resetHandler s with seq := .initHook }
    else beginDelay .initStabilize s.cfg.tStabilize (resetHandler s)
  else emitLifecycle .invalidParameter s

/-- R207: the end of DEINIT: the reset of R39's column "DEINIT" and `Ok`. -/
def finishDeinit (s : State) : State :=
  emitLifecycle .ok { resetHandler s with hstate := .uninitialized }

/-- R207, R209: the start of DEINIT: the teardown hook where there is one, else the rest at once. -/
def acceptDeinit (s : State) : State :=
  if s.cfg.hasDeinit then logCall .hookDeinit { s with seq := .deinitHook } else finishDeinit s

/-- R123, R124, R203, R204, R68: the answer to the outstanding handoff. `ok` commits the SEND; `fail` changes nothing but the
end of the handoff. Inside INIT the sequencer goes on or ends, else the host gets the result. -/
def answerHandoff (a : Answer) (s : State) : State :=
  match a with
  | .ok =>
    match s.seq with
    | .initReset => beginDelay .initAfterReset s.cfg.tAfterReset (commitSend s)
    | .initSelect => beginDelay .initAfterSelect s.cfg.tAfterSelect (commitSend s)
    | _ => emitCommand .ok (commitSend s)
  | .fail =>
    match s.seq with
    | .initReset => emitLifecycle .transportError { s with txBusy := false }
    | .initSelect => emitLifecycle .transportError { s with txBusy := false }
    | _ => emitCommand .transportError { s with txBusy := false }

/-- R203, R204, R208, R210: an answer to what the block waits for. A failing init hook ends INIT; the answers of a delay and of
the teardown hook are discarded; the last delay makes the handler Ready. Where nothing is waited for, an answer has no effect
(log 28). -/
def answer (a : Answer) (s : State) : State :=
  if txValid s then answerHandoff a s
  else
    match s.seq with
    | .initHook =>
      match a with
      | .ok => beginDelay .initStabilize s.cfg.tStabilize s
      | .fail => emitLifecycle .transportError s
    | .initStabilize => initSend .initReset s.cfg.opReset s.cfg.resetData s
    | .initAfterReset => initSend .initSelect s.cfg.opSelectDevice s.cfg.selectData s
    | .initAfterSelect => emitLifecycle .ok { s with hstate := .ready }
    | .deinitHook => finishDeinit s
    | .idle => s
    | .initReset => s
    | .initSelect => s

/-- The answers the transport gives at once, each to the next call, for as long as the block waits (R14, R65; log 5). What is
left stays for later calls. -/
def settleWith (as : List Answer) (s : State) : State :=
  match as with
  | [] => { s with replies := [] }
  | a :: rest => if cmdReady s then { s with replies := a :: rest } else settleWith rest (answer a s)

/-- `settleWith` on the answers that stand in the state. -/
def settle (s : State) : State := settleWith s.replies s

end Sys2Proof.Machine
end

