-- ==== Sys2Proof/Machine/Commands.lean ====
section
/-!
DEFINITION. The meanings of the Command Encoder's rows (`40_encoder.md`): SEND, the fifteen named commands, ENCODE.
-/

namespace Sys2Proof.Machine

/-- R122: `SEND(op, hi, lo)` with the answers that stand ready; with none, the handoff stays outstanding (R141). A SEND while
the command port is not ready is a caller that bypasses the handshake (R260, U6: refuse; log 15). -/
def sendCommand (op hi lo : Byte) (s : State) : Host.Outcome State Fault Refusal :=
  if cmdReady s then .next (settle (acceptSend op hi lo s)) else .refused .commandNotReady

/-- SEND, R122 to R125. -/
def execSend (op hi lo : Byte) (s : State) : Host.Outcome State Fault Refusal := sendCommand op hi lo s

/-- NEXT, R126. -/
def execNext (s : State) : Host.Outcome State Fault Refusal := sendCommand s.cfg.opNext 0 0 s

/-- PREV, R127. -/
def execPrev (s : State) : Host.Outcome State Fault Refusal := sendCommand s.cfg.opPrev 0 0 s

/-- PLAY_INDEX, R128. -/
def execPlayIndex (n : Half) (s : State) : Host.Outcome State Fault Refusal :=
  sendCommand s.cfg.opPlayIndex (hiByte n) (loByte n) s

/-- VOL_UP, R129. -/
def execVolUp (s : State) : Host.Outcome State Fault Refusal := sendCommand s.cfg.opVolUp 0 0 s

/-- VOL_DOWN, R130. -/
def execVolDown (s : State) : Host.Outcome State Fault Refusal := sendCommand s.cfg.opVolDown 0 0 s

/-- VOL_SET, R131: the clamp happens before ENCODE. -/
def execVolSet (v : Byte) (s : State) : Host.Outcome State Fault Refusal :=
  sendCommand s.cfg.opVolSet 0 (clampVolume v) s

/-- SELECT_DEVICE, R132. -/
def execSelectDevice (d : Half) (s : State) : Host.Outcome State Fault Refusal :=
  sendCommand s.cfg.opSelectDevice (hiByte d) (loByte d) s

/-- RESET, R133: a command to the remote device; it resets nothing here. -/
def execReset (s : State) : Host.Outcome State Fault Refusal :=
  sendCommand s.cfg.opReset (hiByte s.cfg.resetData) (loByte s.cfg.resetData) s

/-- PLAY, R134. -/
def execPlay (s : State) : Host.Outcome State Fault Refusal := sendCommand s.cfg.opPlay 0 0 s

/-- PAUSE, R135. -/
def execPause (s : State) : Host.Outcome State Fault Refusal := sendCommand s.cfg.opPause 0 0 s

/-- PLAY_FOLDER_FILE, R137. -/
def execPlayFolderFile (f n : Byte) (s : State) : Host.Outcome State Fault Refusal :=
  sendCommand s.cfg.opPlayFolderFile f n s

/-- STOP, R136. -/
def execStop (s : State) : Host.Outcome State Fault Refusal := sendCommand s.cfg.opStop 0 0 s

/-- QUERY_STATUS, R138. -/
def execQueryStatus (s : State) : Host.Outcome State Fault Refusal := sendCommand s.cfg.opQueryStatus 0 0 s

/-- QUERY_VOLUME, R139. -/
def execQueryVolume (s : State) : Host.Outcome State Fault Refusal := sendCommand s.cfg.opQueryVolume 0 0 s

/-- QUERY_TRACK, R140. -/
def execQueryTrack (s : State) : Host.Outcome State Fault Refusal := sendCommand s.cfg.opQueryTrack 0 0 s

/-- ENCODE, R120, R121: reads and writes no register; its result is the frame (log 9). -/
def execEncode (op hi lo : Byte) (s : State) : Host.Outcome State Fault Refusal :=
  .next (emitFrame (encodeFrame op hi lo) s)

end Sys2Proof.Machine
end

