-- ==== Sys2Proof/Machine/Lifecycle.lean ====
section
/-!
DEFINITION. The meanings of INIT and DEINIT (`43_lifecycle.md`).
-/

namespace Sys2Proof.Machine

/-- INIT, R202 to R206, with the answers that stand ready; where they run out the sequencer waits at its position, and FEED
steps may fall there (R211; log 29). A request while the block is busy is ignored (R72; log 16); the capability check comes before
anything else (R202, R230 b); while Ready the operation is refused (R206; log 17). -/
def execInit (s : State) : Host.Outcome State Fault Refusal :=
  if cmdReady s then
    if s.cfg.hasDelay ∧ s.cfg.hasSend ∧ s.hstate = .ready then .refused .initWhileReady
    else .next (settle (acceptInit s))
  else .next s

/-- DEINIT, R207, R208; a request while the block is busy is ignored (R72; log 16). -/
def execDeinit (s : State) : Host.Outcome State Fault Refusal :=
  if cmdReady s then .next (settle (acceptDeinit s)) else .next s

end Sys2Proof.Machine
end

