-- ==== Sys2Proof/Machine/Parser.lean ====
section
/-!
DEFINITION. The Response Parser (`42_parser.md`): PARSE and its arms, each a definition of its own.
-/

namespace Sys2Proof.Machine

/-- R173: `media <- 1`. -/
def armMediaInserted (s : State) : State := s.setMedia

/-- R174: `track <- 0`. -/
def armPlayCompleted (s : State) : State := { s with track := 0 }

/-- R175: no status field is written. -/
def armError (s : State) : State := s

/-- R176: no status field is written. -/
def armAck (s : State) : State := s

/-- R177: `status <- data`; if all 16 bits of `data` are 0, also `track <- 0`. -/
def armStatus (data : Half) (s : State) : State :=
  { s with status := data, track := if data = 0 then 0 else s.track }

/-- R178: `volume <- data`, all 16 bits, no clamp. -/
def armVolume (data : Half) (s : State) : State := { s with volume := data }

/-- R179: `track <- data`, all 16 bits. -/
def armTrackCount (data : Half) (s : State) : State := { s with track := data }

/-- R180: no status field is written. -/
def armFolder (s : State) : State := s

/-- R181: no status field is written. -/
def armFolderTrackCount (s : State) : State := s

/-- R182: no status field is written. -/
def armFolderFile (s : State) : State := s

/-- R172, R183, R184: dispatch on the response code, with the fallback arm. -/
def dispatchResponse (code : Byte) (data : Half) (s : State) : State × ParseResult :=
  if code = s.cfg.rcMediaInserted then (armMediaInserted s, .ok)
  else if code = s.cfg.rcPlayCompleted then (armPlayCompleted s, .ok)
  else if code = s.cfg.rcError then (armError s, .ok)
  else if code = s.cfg.rcAck then (armAck s, .ok)
  else if code = s.cfg.rcStatus then (armStatus data s, .ok)
  else if code = s.cfg.rcVolume then (armVolume data s, .ok)
  else if code = s.cfg.rcTrackCount then (armTrackCount data s, .ok)
  else if code = s.cfg.rcFolder then (armFolder s, .ok)
  else if code = s.cfg.rcFolderTrackCount then (armFolderTrackCount s, .ok)
  else if code = s.cfg.rcFolderFile then (armFolderFile s, .ok)
  else (s, .unrecognizedResponse)

/-- R170, R171, R184: PARSE. Reads `buf[3]`, `buf[5]` and `buf[6]`, records the response, then dispatches. The
cells of a short frame may be an earlier frame's (R186, log 13). -/
def parse (s : State) : Except Fault (State × ParseResult) :=
  match readBuf s 3, readBuf s 5, readBuf s 6 with
  | .ok code, .ok hi, .ok lo =>
    .ok (dispatchResponse code (joinBytes hi lo) (s.recordResponse code (joinBytes hi lo)))
  | .error f, _, _ => .error f
  | _, .error f, _ => .error f
  | _, _, .error f => .error f

end Sys2Proof.Machine
end

