-- ==== Sys2Proof/Machine/Framer.lean ====
section
/-!
DEFINITION. The Response Framer (`41_framer.md`): FEED, its arms, and the meanings of the five BYTE rows. Each byte row's
meaning is FEED of its byte (log 8): in the framer state the row names, FEED takes that row's arm.
-/

namespace Sys2Proof.Machine

/-- R151: start of frame. `buf[0] <- 0x7E`; `cursor <- 1`; `fstate <- InFrame`; Continue. -/
def feedStart (s : State) : Except Fault State :=
  match writeBuf 0 sof s with
  | .ok s => .ok (emitFeed .cont { s with cursor := 1, fstate := .inFrame })
  | .error f => .error f

/-- R152: a stray byte is discarded; Continue. -/
def feedStray (s : State) : Except Fault State := .ok (emitFeed .cont s)

/-- R158: what FEED returns for the parser's result. -/
def feedResultOf : ParseResult → FeedResult
  | .ok => .frameReady
  | .unrecognizedResponse => .frameError

/-- R154, after the append of R153: `cursor <- 0`; `fstate <- Idle`; PARSE; FrameReady or FrameError. -/
def feedComplete (s : State) : Except Fault State :=
  match parse { s with cursor := 0, fstate := .idle } with
  | .ok (s, r) => .ok (emitFeed (feedResultOf r) s)
  | .error f => .error f

/-- R155, after the append: `cursor <- 0`; `fstate <- Idle`; no PARSE; Continue (log 14). -/
def feedOverflow (s : State) : Except Fault State := .ok (emitFeed .cont { s with cursor := 0, fstate := .idle })

/-- R157, after the append: `cursor <- cursor + 1`; Continue. -/
def feedAdvance (s : State) : Except Fault State := .ok (emitFeed .cont { s with cursor := s.cursor + 1 })

/-- R157: `FEED(b)`. The end marker is tested before the capacity (R156). -/
def feed (b : Byte) (s : State) : Except Fault State :=
  match s.fstate with
  | .idle => if b = sof then feedStart s else feedStray s
  | .inFrame =>
    match writeBuf s.cursor b s with
    | .ok s =>
      if b = eof then feedComplete s
      else if s.cursor + 1 = s.cfg.cap then feedOverflow s
      else feedAdvance s
    | .error f => .error f

/-- R108, R109: `FEED*`, one FEED after the other. -/
def feedAll (bs : List Byte) (s : State) : Except Fault State :=
  match bs with
  | [] => .ok s
  | b :: bs =>
    match feed b s with
    | .ok s => feedAll bs s
    | .error f => .error f

/-- BYTE_SOF_IDLE, R151. -/
def execByteSofIdle (s : State) : Host.Outcome State Fault Refusal := outcomeOf (feed sof s)

/-- BYTE_STRAY_IDLE, R152. -/
def execByteStrayIdle (b : Byte) (s : State) : Host.Outcome State Fault Refusal := outcomeOf (feed b s)

/-- BYTE_EOF_INFRAME, R154, R156. -/
def execByteEofInframe (s : State) : Host.Outcome State Fault Refusal := outcomeOf (feed eof s)

/-- BYTE_PAYLOAD_INFRAME, R153. -/
def execBytePayloadInframe (b : Byte) (s : State) : Host.Outcome State Fault Refusal := outcomeOf (feed b s)

/-- BYTE_PAYLOAD_OVERFLOW, R155. -/
def execBytePayloadOverflow (b : Byte) (s : State) : Host.Outcome State Fault Refusal := outcomeOf (feed b s)

end Sys2Proof.Machine
end

