-- ==== Sys2Proof/Machine/Responses.lean ====
section
/-!
DEFINITION. The meanings of the RX10 rows: an inbound frame of ten bytes, delivered as ten FEED steps with nothing between
(`FEED*`, R108, R161; log 7). The parser's arm is taken in the completion step (R154, R184).
-/

namespace Sys2Proof.Machine

/-- RSP_MEDIA_INSERTED, R173. -/
def execRspMediaInserted (f : RxFields) (s : State) : Host.Outcome State Fault Refusal :=
  outcomeOf (feedAll (rxFrame s.cfg.rcMediaInserted f) s)

/-- RSP_PLAY_COMPLETED, R174. -/
def execRspPlayCompleted (f : RxFields) (s : State) : Host.Outcome State Fault Refusal :=
  outcomeOf (feedAll (rxFrame s.cfg.rcPlayCompleted f) s)

/-- RSP_ERROR, R175. -/
def execRspError (f : RxFields) (s : State) : Host.Outcome State Fault Refusal :=
  outcomeOf (feedAll (rxFrame s.cfg.rcError f) s)

/-- RSP_ACK, R176. -/
def execRspAck (f : RxFields) (s : State) : Host.Outcome State Fault Refusal :=
  outcomeOf (feedAll (rxFrame s.cfg.rcAck f) s)

/-- RSP_STATUS, R177. -/
def execRspStatus (f : RxFields) (s : State) : Host.Outcome State Fault Refusal :=
  outcomeOf (feedAll (rxFrame s.cfg.rcStatus f) s)

/-- RSP_VOLUME, R178. -/
def execRspVolume (f : RxFields) (s : State) : Host.Outcome State Fault Refusal :=
  outcomeOf (feedAll (rxFrame s.cfg.rcVolume f) s)

/-- RSP_TRACK_COUNT, R179. -/
def execRspTrackCount (f : RxFields) (s : State) : Host.Outcome State Fault Refusal :=
  outcomeOf (feedAll (rxFrame s.cfg.rcTrackCount f) s)

/-- RSP_FOLDER, R180. -/
def execRspFolder (f : RxFields) (s : State) : Host.Outcome State Fault Refusal :=
  outcomeOf (feedAll (rxFrame s.cfg.rcFolder f) s)

/-- RSP_FOLDER_TRACK_COUNT, R181. -/
def execRspFolderTrackCount (f : RxFields) (s : State) : Host.Outcome State Fault Refusal :=
  outcomeOf (feedAll (rxFrame s.cfg.rcFolderTrackCount f) s)

/-- RSP_FOLDER_FILE, R182. -/
def execRspFolderFile (f : RxFields) (s : State) : Host.Outcome State Fault Refusal :=
  outcomeOf (feedAll (rxFrame s.cfg.rcFolderFile f) s)

/-- RSP_UNRECOGNIZED, R183. -/
def execRspUnrecognized (code : Byte) (f : RxFields) (s : State) : Host.Outcome State Fault Refusal :=
  outcomeOf (feedAll (rxFrame code f) s)

end Sys2Proof.Machine
end

