-- ==== Sys2Proof/Machine/Dispatch.lean ====
section
/-!
DEFINITION. The meaning of every instruction: one arm per row of the opcode table.
-/

namespace Sys2Proof.Machine

def exec (i : Instr) (s : State) : Host.Outcome State Fault Refusal :=
  match i with
  | .send op hi lo => Sys2Proof.Machine.execSend op hi lo s
  | .next => Sys2Proof.Machine.execNext s
  | .prev => Sys2Proof.Machine.execPrev s
  | .playIndex n => Sys2Proof.Machine.execPlayIndex n s
  | .volUp => Sys2Proof.Machine.execVolUp s
  | .volDown => Sys2Proof.Machine.execVolDown s
  | .volSet v => Sys2Proof.Machine.execVolSet v s
  | .selectDevice d => Sys2Proof.Machine.execSelectDevice d s
  | .reset => Sys2Proof.Machine.execReset s
  | .play => Sys2Proof.Machine.execPlay s
  | .pause => Sys2Proof.Machine.execPause s
  | .playFolderFile f n => Sys2Proof.Machine.execPlayFolderFile f n s
  | .stop => Sys2Proof.Machine.execStop s
  | .queryStatus => Sys2Proof.Machine.execQueryStatus s
  | .queryVolume => Sys2Proof.Machine.execQueryVolume s
  | .queryTrack => Sys2Proof.Machine.execQueryTrack s
  | .rspMediaInserted f => Sys2Proof.Machine.execRspMediaInserted f s
  | .rspPlayCompleted f => Sys2Proof.Machine.execRspPlayCompleted f s
  | .rspError f => Sys2Proof.Machine.execRspError f s
  | .rspAck f => Sys2Proof.Machine.execRspAck f s
  | .rspStatus f => Sys2Proof.Machine.execRspStatus f s
  | .rspVolume f => Sys2Proof.Machine.execRspVolume f s
  | .rspTrackCount f => Sys2Proof.Machine.execRspTrackCount f s
  | .rspFolder f => Sys2Proof.Machine.execRspFolder f s
  | .rspFolderTrackCount f => Sys2Proof.Machine.execRspFolderTrackCount f s
  | .rspFolderFile f => Sys2Proof.Machine.execRspFolderFile f s
  | .rspUnrecognized code f => Sys2Proof.Machine.execRspUnrecognized code f s
  | .byteSofIdle => Sys2Proof.Machine.execByteSofIdle s
  | .byteStrayIdle b => Sys2Proof.Machine.execByteStrayIdle b s
  | .byteEofInframe => Sys2Proof.Machine.execByteEofInframe s
  | .bytePayloadInframe b => Sys2Proof.Machine.execBytePayloadInframe b s
  | .bytePayloadOverflow b => Sys2Proof.Machine.execBytePayloadOverflow b s
  | .encode op hi lo => Sys2Proof.Machine.execEncode op hi lo s
  | .init => Sys2Proof.Machine.execInit s
  | .deinit => Sys2Proof.Machine.execDeinit s

end Sys2Proof.Machine
end

