-- ==== Sys2Proof/Machine/Ports.lean ====
section
/-!
DEFINITION. The port-level binding (`20_memory.md` R66 to R72, this spec's decision D1): one rising edge of `clk`, and the
output pins as functions of the registers.
-/

namespace Sys2Proof.Machine

/-! ### One rising edge (R66) -/

/-- R72: `hook_init_req`, held while the sequencer waits for the init hook. -/
def hookInitReq (s : State) : Bool := decide (s.seq = .initHook)

/-- R72: `hook_deinit_req`. -/
def hookDeinitReq (s : State) : Bool := decide (s.seq = .deinitHook)

/-- R72: `delay_req`. -/
def delayReq (s : State) : Bool :=
  decide (s.seq = .initStabilize) || decide (s.seq = .initAfterReset) || decide (s.seq = .initAfterSelect)

/-- R68, R72: the answer pins that count in this cycle, those of the call that is outstanding; none while a command without
the send capability completes. Of `tx_ack` and `tx_nak` raised
together `tx_nak` wins (R230 e); the same order is taken for `hook_ack` and `hook_nak` (log 21). -/
def answerPins (p : PortIn) (s : State) : Option Answer :=
  if s.txBusy then
    if s.cfg.hasSend then (if p.txNak then some .fail else if p.txAck then some .ok else none) else none
  else if hookInitReq s || hookDeinitReq s then (if p.hookNak then some .fail else if p.hookAck then some .ok else none)
  else if delayReq s then (if p.delayNak then some .fail else if p.delayAck then some .ok else none)
  else none

/-- R67, R72: acceptance in a cycle with `cmd_ready = 1`. A valid command is accepted; `deinit_req` wins over `init_req`
(R230 f); `init_req` in Ready is ignored (R206). A lifecycle request beside a command in one cycle is ignored (log 20). -/
def acceptPins (p : PortIn) (s : State) : State :=
  if p.cmdValid then acceptCommand p.cmdOp p.cmdHi p.cmdLo s
  else if p.deinitReq then acceptDeinit s
  else if p.initReq then (if s.hstate = .ready then s else acceptInit s)
  else s

/-- R66: one rising edge of `clk`. `rst` wins over everything (R230 g). A received byte is fed first (R69, R77), then the
outstanding call's answer takes effect, or, where nothing is outstanding, a request is accepted (log 22). A cycle in which a
command without the send capability completed ends here (log 19). -/
def clockEdge (p : PortIn) (s : State) : Except Fault State :=
  if p.rst then .ok (hardwareReset s)
  else
    match (if p.rxValid then feed p.rxByte s else .ok s) with
    | .error f => .error f
    | .ok s =>
      if cmdReady s then .ok (acceptPins p s)
      else
        match answerPins p s with
        | some a => .ok (answer a s)
        | none => .ok (endRejection s)

/-! ### Output pins (R67 to R72, encodings of R226) -/

/-- R226: `cmd_status` and `life_status`. -/
def statusCode : Status → BitVec 2
  | .ok => 0
  | .invalidParameter => 1
  | .transportError => 2

/-- R226: `feed_result`. -/
def feedCode : FeedResult → BitVec 2
  | .cont => 0
  | .frameReady => 1
  | .frameError => 2

/-- R226: `fstate`. -/
def fstateCode : FState → BitVec 1
  | .idle => 0
  | .inFrame => 1

/-- R226: `hstate`. -/
def hstateCode : HState → BitVec 1
  | .uninitialized => 0
  | .ready => 1

/-- R31: the width of the `cursor` register at port level, `ceil(log2(CAP))`: as many bits as `CAP - 1` takes. -/
def cursorBits (cap : Nat) : Nat := if cap ≤ 1 then 0 else Nat.log2 (cap - 1) + 1

/-- All output pins of a block with `cap` buffer cells. An output that is specified only while its qualifier is 1 is an `Option`
(log 24). -/
structure PortOut (cap : Nat) where
  cmdReady : Bool
  cmdDone : Bool
  cmdStatus : Option (BitVec 2)
  txValid : Bool
  txFrame : Option (BitVec 64)
  feedDone : Bool
  feedResult : BitVec 2
  frameReady : Bool
  frameError : Bool
  volume : Half
  track : Half
  status : Half
  media : Bool
  lastCmdOp : Byte
  lastCmdData : Half
  lastRspCode : Byte
  lastRspData : Half
  lastRspValid : Bool
  hstate : BitVec 1
  fstate : BitVec 1
  cursor : BitVec (cursorBits cap)
  hookInitReq : Bool
  hookDeinitReq : Bool
  delayReq : Bool
  delayMs : Option Half
  lifeDone : Bool
  lifeStatus : Option (BitVec 2)
deriving DecidableEq, Repr

/-- R72, R203: `delay_ms`, the count of the delay that is requested. -/
def delayMs (s : State) : Option Half :=
  match s.seq with
  | .initStabilize => some s.cfg.tStabilize
  | .initAfterReset => some s.cfg.tAfterReset
  | .initAfterSelect => some s.cfg.tAfterSelect
  | _ => none

/-- R68: `tx_frame`, byte index 0 in bits 63 to 56. -/
def txFrame (s : State) : BitVec 64 :=
  BitVec.ofNat 64 (frameValue (encodeFrame s.txCmd.op s.txCmd.hi s.txCmd.lo))

/-- R66: the pulses that show in a cycle: those registered by the step before, and none in a cycle with `rst = 1`. -/
def shownPulses (rst : Bool) (s : State) : Pulses := if rst then Pulses.none else s.pulses

/-- R42, R67 to R72: the output pins in the cycle that a state stands for, under the level of `rst` in that cycle. They are driven
from the registers; `rst` suppresses the output pulses, with the values they qualify, and no level (R66; log 31). Reading them has
no side effect. -/
def portOut (s : State) (rst : Bool := false) : PortOut s.cfg.cap where
  cmdReady := cmdReady s
  cmdDone := (shownPulses rst s).cmdDone.isSome
  cmdStatus := (shownPulses rst s).cmdDone.map statusCode
  txValid := txValid s
  txFrame := if txValid s then some (txFrame s) else none
  feedDone := (shownPulses rst s).feedDone.isSome
  feedResult := match (shownPulses rst s).feedDone with | some r => feedCode r | none => 0
  frameReady := decide ((shownPulses rst s).feedDone = some .frameReady)
  frameError := decide ((shownPulses rst s).feedDone = some .frameError)
  volume := s.volume
  track := s.track
  status := s.status
  media := s.media
  lastCmdOp := s.lastCmdOp
  lastCmdData := s.lastCmdData
  lastRspCode := s.lastRspCode
  lastRspData := s.lastRspData
  lastRspValid := s.lastRspValid
  hstate := hstateCode s.hstate
  fstate := fstateCode s.fstate
  cursor := BitVec.ofNat _ s.cursor
  hookInitReq := hookInitReq s
  hookDeinitReq := hookDeinitReq s
  delayReq := delayReq s
  delayMs := delayMs s
  lifeDone := (shownPulses rst s).lifeDone.isSome
  lifeStatus := (shownPulses rst s).lifeDone.map statusCode

end Sys2Proof.Machine
end

