-- ==== Sys2Proof/Machine/Fetch.lean ====
section
/-!
DEFINITION. Taking the next event from the agenda and running it. The block has no fetch (R33, R80): what is taken is what an
agent presents next (R10, R65, R77; log 4).
-/

namespace Sys2Proof.Machine

/-- What the framer contributes to reading a received byte (R98, R155). -/
def State.view (s : State) : FramerView := ⟨s.fstate, s.cursor⟩

/-- The event is taken and the one-cycle outputs of the step before end (R70, R229). -/
def takeEvent (rest : List Event) (s : State) : State := { s with agenda := rest, pulses := Pulses.none }

/-- R141, R65: a late answer: to the outstanding call, and then the answers that stand ready to the calls after it; without
effect where nothing is waited for (log 5, log 28). -/
def replyStep (a : Answer) (s : State) : State := if cmdReady s then s else settle (answer a s)

/-- Nothing is presented: the one-cycle outputs of the step before end, `tx_busy` of a command that had no send capability among
them (R67; log 19), and nothing else changes (R238). -/
def idleStep (s : State) : State := endRejection (takeEvent [] s)

/-- One event: a word is decoded and its instruction executed; a named operation is executed; a late answer goes to the call
that is outstanding, and then the answers that stand ready to the calls after it (log 5); a clock edge is the port level. Every
event but an edge finds the completion cycle of a command without the send capability over (log 19). -/
def runEvent (e : Event) (s : State) : Host.Outcome State Fault Refusal :=
  match e with
  | .word r =>
    match decode s.cfg s.view r with
    | .ok i => exec i (endRejection s)
    | .error e => .refused (.noSuchWord e)
  | .call i => exec i (endRejection s)
  | .reply a => .next (replyStep a (endRejection s))
  | .edge p => outcomeOf (clockEdge p s)

/-- The framer set so that a lone byte is read as `tableView` reads it; the framer state is what selects among the BYTE rows
(R98; log 6). A framer that reads it so already stays. -/
def selectByteRow (bs : List Byte) (s : State) : State :=
  if bs.length = 1 then
    if s.fstate = (tableView bs).fstate then s
    else { s with fstate := (tableView bs).fstate, cursor := (tableView bs).cursor }
  else s

/-- The table word `w` of `nbits` bits as the next event. -/
def presentWord (nbits w : Nat) (s : State) : State :=
  let s := selectByteRow (tableBytes nbits w) s
  { s with agenda := .word (.bytes (tableBytes nbits w)) :: s.agenda }

end Sys2Proof.Machine
end

