-- ==== Sys2Proof/Machine/Step.lean ====
section
/-!
DEFINITION. One step: the oldest event of the agenda. With nothing presented the block is idle (R238): the one-cycle outputs
end and nothing else changes.
-/

namespace Sys2Proof.Machine

def step (s : State) : Host.Outcome State Fault Refusal :=
  match s.agenda with
  | [] => .next (idleStep s)
  | e :: rest => runEvent e (takeEvent rest s)

/-- The state with a word of the opcode table presented as its next event (log 6). -/
def State.withFetchWord (s : State) (nbits w : Nat) : State := presentWord nbits w s

end Sys2Proof.Machine
end

