-- ==== Sys2Proof/Safety.lean ====
section
/-!
DEFINITION. What counts as a good state and a safe run, in the terms the statements use.
-/

namespace Sys2Proof.Machine

/-- R32: `fstate = Idle` if and only if `cursor = 0`, and `cursor <= CAP-1`. -/
def FramerInv (s : State) : Prop := (s.fstate = .idle ↔ s.cursor = 0) ∧ s.cursor < s.cfg.cap

/-- The receive buffer keeps its canonical form, inside `buf[0..CAP-1]` (R60). -/
def BufferInv (s : State) : Prop := s.buf.wf = true ∧ s.buf.within s.cfg.cap = true

/-- R28, R27, R124: while `last_rsp_valid` is 0 the last-response fields are 0. -/
def ResponseInv (s : State) : Prop := s.lastRspValid = false → s.lastRspCode = 0 ∧ s.lastRspData = 0

/-- R36, R72, R203, R207: what each position of the sequencer says of the outstanding handoff, of the capabilities and of
`hstate`. A handoff is outstanding exactly where one is awaited; without the send capability
`tx_busy` is 1 only while a command of the host completes (R67; log 19); INIT runs only while Uninitialized and with its mandatory
capabilities; Ready is reached only with them (R200, R202). -/
def SequencerInv (s : State) : Prop :=
  (s.txBusy = true → s.cfg.hasSend = true ∨ s.seq = .idle) ∧
  (s.hstate = .ready → s.cfg.hasDelay = true ∧ s.cfg.hasSend = true) ∧
  match s.seq with
  | .idle => True
  | .initHook =>
    s.txBusy = false ∧ s.cfg.hasInit = true ∧ s.cfg.hasDelay = true ∧ s.cfg.hasSend = true ∧ s.hstate = .uninitialized
  | .initStabilize => s.txBusy = false ∧ s.cfg.hasDelay = true ∧ s.cfg.hasSend = true ∧ s.hstate = .uninitialized
  | .initReset =>
    s.txBusy = true ∧ s.cfg.hasDelay = true ∧ s.hstate = .uninitialized ∧
      s.txCmd = ⟨s.cfg.opReset, hiByte s.cfg.resetData, loByte s.cfg.resetData⟩
  | .initAfterReset => s.txBusy = false ∧ s.cfg.hasDelay = true ∧ s.cfg.hasSend = true ∧ s.hstate = .uninitialized
  | .initSelect =>
    s.txBusy = true ∧ s.cfg.hasDelay = true ∧ s.hstate = .uninitialized ∧
      s.txCmd = ⟨s.cfg.opSelectDevice, hiByte s.cfg.selectData, loByte s.cfg.selectData⟩
  | .initAfterSelect => s.txBusy = false ∧ s.cfg.hasDelay = true ∧ s.cfg.hasSend = true ∧ s.hstate = .uninitialized
  | .deinitHook => s.txBusy = false ∧ s.cfg.hasDeinit = true

/-- R90, R110: every frame on the TX log is an outbound frame of format TX8. -/
def TxLogInv (s : State) : Prop := ∀ f ∈ s.txLog, ∃ op hi lo, f = encodeFrame op hi lo

/-- The invariant of the machine. -/
structure MachineInv (s : State) : Prop where
  admissible : s.cfg.Admissible
  framer : FramerInv s
  buffer : BufferInv s
  response : ResponseInv s
  sequencer : SequencerInv s
  txLog : TxLogInv s

/-- An outcome that is no fault: the block has no trap and no crash (R183, R231). -/
def NoFault (o : Host.Outcome State Fault Refusal) : Prop := ∀ f, o ≠ .fault f

/-! ### States that the statements compare with -/

/-- R124, R122: `s` after a SEND of `op hi lo` whose handoff was answered `ok`, `rest` being the answers still to come: the last
command recorded, the last response cleared, the frame on the TX log, `Ok` to the host. Every other field is that of `s`. -/
def SentOk (op hi lo : Byte) (rest : List Answer) (s : State) : State :=
  { s with
    lastCmdOp := op, lastCmdData := joinBytes hi lo, lastRspCode := 0, lastRspData := 0, lastRspValid := false,
    txCmd := ⟨op, hi, lo⟩, replies := rest, txLog := s.txLog ++ [[0x7E, 0xFF, 0x06, op, 0x01, hi, lo, 0xEF]],
    calls := s.calls ++ [.handoff [0x7E, 0xFF, 0x06, op, 0x01, hi, lo, 0xEF]], hostLog := s.hostLog ++ [.status .ok],
    pulses := { s.pulses with cmdDone := some .ok } }

/-- R123: `s` after a SEND of `op hi lo` whose handoff was answered `fail`: no field of the spec's record S changes, and the
frame is not on the TX log. `txCmd` is the port's operand latch (R67), not a field of S. -/
def SentFail (op hi lo : Byte) (rest : List Answer) (s : State) : State :=
  { s with
    txCmd := ⟨op, hi, lo⟩, replies := rest, calls := s.calls ++ [.handoff [0x7E, 0xFF, 0x06, op, 0x01, hi, lo, 0xEF]],
    hostLog := s.hostLog ++ [.status .transportError], pulses := { s.pulses with cmdDone := some .transportError } }

/-- R161, R171: `t` is `s` after a nominal inbound frame whose PARSE ended with `r`, whatever the parser's arm did to the four
status fields: the ten bytes stand in cells 0 to 9 and every other cell reads as before; the framer is idle; the response is
recorded; nine Continue and then `r` were returned; every other field is that of `s`. -/
def FrameReceived (code : Byte) (f : RxFields) (r : FeedResult) (s t : State) : Prop :=
  (∀ a, t.buf.read a =
    if a < 10 then
      [0x7E, f.version, f.length, code, f.feedback, f.hi, f.lo, f.rsv7, f.rsv8, 0xEF].getD a 0
    else s.buf.read a) ∧
  { t with buf := s.buf } =
    { s with
      volume := t.volume, track := t.track, status := t.status, media := t.media, lastRspCode := code,
      lastRspData := joinBytes f.hi f.lo, lastRspValid := true, fstate := .idle, cursor := 0,
      feedLog := s.feedLog ++ List.replicate 9 .cont ++ [r], pulses := { s.pulses with feedDone := some r } }

/-- The four status fields of `t` are these. -/
def StatusFields (t : State) (volume track status : Half) (media : Bool) : Prop :=
  t.volume = volume ∧ t.track = track ∧ t.status = status ∧ t.media = media

/-- Every Device State field and the framer at the values that R39 gives for INIT start and DEINIT alike. -/
def HandlerReset (t : State) : Prop :=
  t.volume = 0 ∧ t.track = 0 ∧ t.status = 0 ∧ t.media = false ∧ t.lastCmdOp = 0 ∧ t.lastCmdData = 0 ∧ t.lastRspCode = 0 ∧
    t.lastRspData = 0 ∧ t.lastRspValid = false ∧ t.fstate = .idle ∧ t.cursor = 0

/-- R124, R212: `u` is a state right after a SEND of INIT was committed: the command recorded, the last response cleared, its frame
added to the TX log of `s`, the sequencer at `position`. -/
def HandoffCommitted (op : Byte) (data : Half) (position : Seq) (s u : State) : Prop :=
  u.lastCmdOp = op ∧ u.lastCmdData = data ∧ u.lastRspCode = 0 ∧ u.lastRspData = 0 ∧ u.lastRspValid = false ∧
    u.txLog = s.txLog ++ [encodeFrame op (hiByte data) (loByte data)] ∧ u.seq = position

/-- R71, R226: these pins show the registers of `s` on the status outputs; the `cursor` output has its value wherever it is a cell
of the buffer (R31). -/
def StatusOutputs (s : State) {cap : Nat} (o : PortOut cap) : Prop :=
  o.volume = s.volume ∧ o.track = s.track ∧ o.status = s.status ∧ o.media = s.media ∧ o.lastCmdOp = s.lastCmdOp ∧
    o.lastCmdData = s.lastCmdData ∧ o.lastRspCode = s.lastRspCode ∧ o.lastRspData = s.lastRspData ∧
    o.lastRspValid = s.lastRspValid ∧ o.hstate = (match s.hstate with | .uninitialized => 0 | .ready => 1) ∧
    o.fstate = (match s.fstate with | .idle => 0 | .inFrame => 1) ∧ (s.cursor < s.cfg.cap → o.cursor.toNat = s.cursor)

/-- R66: no output pulse shows on these pins, nor a value that a pulse qualifies (R67, R70, R72). -/
def NoPulse {cap : Nat} (o : PortOut cap) : Prop :=
  o.cmdDone = false ∧ o.cmdStatus = none ∧ o.feedDone = false ∧ o.feedResult = 0 ∧ o.frameReady = false ∧
    o.frameError = false ∧ o.lifeDone = false ∧ o.lifeStatus = none

/-- R72: the answer pins of one call: the ack raised, the nak raised. -/
def Answered (ack nak : Bool) : Prop := ack = true ∨ nak = true

/-- No answer pin is raised, and neither `rst` nor a received byte. -/
def PortIn.Unanswered (p : PortIn) : Prop :=
  p.rst = false ∧ p.rxValid = false ∧ p.txAck = false ∧ p.txNak = false ∧ p.hookAck = false ∧ p.hookNak = false ∧
    p.delayAck = false ∧ p.delayNak = false

/-- R203, R68: `s` with a SEND of INIT presented on the TX port, the sequencer waiting for its answer at `position`. -/
def InitPresents (position : Seq) (op : Byte) (data : Half) (s : State) : State :=
  { s with
    seq := position, txBusy := true, txCmd := ⟨op, hiByte data, loByte data⟩,
    calls := s.calls ++ [.handoff (encodeFrame op (hiByte data) (loByte data))] }

/-- R203, R212, R124: `s` after a SEND of INIT was acknowledged, the delay after it requested. -/
def InitSent (position : Seq) (op : Byte) (data : Half) (ms : Half) (s : State) : State :=
  { s with
    lastCmdOp := op, lastCmdData := data, lastRspCode := 0, lastRspData := 0, lastRspValid := false, txBusy := false,
    txLog := s.txLog ++ [encodeFrame op (hiByte data) (loByte data)], seq := position, calls := s.calls ++ [.delay ms] }

/-- R203, R207, R72: `s` with the result of INIT or DEINIT returned, `life_done` pulsing, the sequencer idle. -/
def LifecycleEnded (r : Status) (s : State) : State :=
  { s with seq := .idle, hostLog := s.hostLog ++ [.status r], pulses := { s.pulses with lifeDone := some r } }

/-- R150: the rows that deliver received bytes. -/
def receives : Instr → Bool
  | .rspMediaInserted _ | .rspPlayCompleted _ | .rspError _ | .rspAck _ | .rspStatus _ | .rspVolume _ | .rspTrackCount _
  | .rspFolder _ | .rspFolderTrackCount _ | .rspFolderFile _ | .rspUnrecognized _ _ => true
  | .byteSofIdle | .byteStrayIdle _ | .byteEofInframe | .bytePayloadInframe _ | .bytePayloadOverflow _ => true
  | _ => false

/-- R104: the rows that send a command of the host. -/
def sends : Instr → Bool
  | .send _ _ _ | .next | .prev | .playIndex _ | .volUp | .volDown | .volSet _ | .selectDevice _ | .reset | .play | .pause
  | .playFolderFile _ _ | .stop | .queryStatus | .queryVolume | .queryTrack => true
  | _ => false

end Sys2Proof.Machine
end

