-- ==== Sys2Proof/Certificates/Slice0/Obligations.lean ====
section
/-!
DEFINITION. The statements for the provers. Each docstring names the rule of the spec it formalises. A rule the spec marks
`[decision: …]` or `[derived: …]` is the spec's own choice or inference, and the docstring says so.
-/

open Sys2Proof Sys2Proof.Machine

/-! ### Command Encoder (`40_encoder.md`) -/

/-- R110, R94, R120: the eight bytes of an outbound frame, for every triple. -/
def Obligations.EncodedFrameBytes : Prop :=
  ∀ op hi lo : Byte, encodeFrame op hi lo = [0x7E, 0xFF, 0x06, op, 0x01, hi, lo, 0xEF]

/-- R121: ENCODE has no error path, is injective, and its inverse reads bytes 3, 5 and 6. -/
def Obligations.EncodedFrameInjective : Prop :=
  ∀ op hi lo : Byte,
    (∀ s : State, ∃ t, exec (.encode op hi lo) s = .next t) ∧
      (∀ op' hi' lo' : Byte, encodeFrame op hi lo = encodeFrame op' hi' lo' → op = op' ∧ hi = hi' ∧ lo = lo') ∧
      (encodeFrame op hi lo)[3]? = some op ∧ (encodeFrame op hi lo)[5]? = some hi ∧ (encodeFrame op hi lo)[6]? = some lo

/-- R120, R225: ENCODE returns the frame to the host and changes nothing else. That ENCODE is run as an operation of its own is
the model's choice (log 9). -/
def Obligations.EncodeReturnsFrame : Prop :=
  ∀ (op hi lo : Byte) (s : State),
    exec (.encode op hi lo) s =
      .next { s with hostLog := s.hostLog ++ [.frame [0x7E, 0xFF, 0x06, op, 0x01, hi, lo, 0xEF]] }

/-- R122, R124 (the cleared values are the spec's decision D11): a SEND answered `ok`. -/
def Obligations.SendCommits : Prop :=
  ∀ (op hi lo : Byte) (rest : List Answer) (s : State), cmdReady s = true → s.cfg.hasSend = true →
    s.replies = .ok :: rest → exec (.send op hi lo) s = .next (SentOk op hi lo rest s)

/-- R123: a SEND answered `fail` changes no field of S, appends nothing to the TX log, makes one handoff, and returns
TransportError. -/
def Obligations.SendFailureLeavesState : Prop :=
  ∀ (op hi lo : Byte) (rest : List Answer) (s : State), cmdReady s = true → s.cfg.hasSend = true →
    s.replies = .fail :: rest → exec (.send op hi lo) s = .next (SentFail op hi lo rest s)

/-- R125 (the spec's decision D25): without the send capability every command returns InvalidParameter and changes nothing. -/
def Obligations.CommandWithoutCapability : Prop :=
  ∀ (i : Instr) (s : State), sends i = true → cmdReady s = true → s.cfg.hasSend = false →
    exec i s = .next { s with
      hostLog := s.hostLog ++ [.status .invalidParameter], pulses := { s.pulses with cmdDone := some .invalidParameter } }

/-- R126 to R140 (the opcodes are parameters, the data operands the spec's decision D8): each named command, answered `ok`, is
SEND of its opcode and data; every field of the next state is stated. -/
def Obligations.NamedCommandsCommit : Prop :=
  ∀ (n d : Half) (f m : Byte) (rest : List Answer) (s : State), cmdReady s = true → s.cfg.hasSend = true →
    s.replies = .ok :: rest →
      exec .next s = .next (SentOk s.cfg.opNext 0 0 rest s) ∧
      exec .prev s = .next (SentOk s.cfg.opPrev 0 0 rest s) ∧
      exec (.playIndex n) s = .next (SentOk s.cfg.opPlayIndex (n.extractLsb' 8 8) (n.extractLsb' 0 8) rest s) ∧
      exec .volUp s = .next (SentOk s.cfg.opVolUp 0 0 rest s) ∧
      exec .volDown s = .next (SentOk s.cfg.opVolDown 0 0 rest s) ∧
      exec (.selectDevice d) s = .next (SentOk s.cfg.opSelectDevice (d.extractLsb' 8 8) (d.extractLsb' 0 8) rest s) ∧
      exec .reset s =
        .next (SentOk s.cfg.opReset (s.cfg.resetData.extractLsb' 8 8) (s.cfg.resetData.extractLsb' 0 8) rest s) ∧
      exec .play s = .next (SentOk s.cfg.opPlay 0 0 rest s) ∧
      exec .pause s = .next (SentOk s.cfg.opPause 0 0 rest s) ∧
      exec (.playFolderFile f m) s = .next (SentOk s.cfg.opPlayFolderFile f m rest s) ∧
      exec .stop s = .next (SentOk s.cfg.opStop 0 0 rest s) ∧
      exec .queryStatus s = .next (SentOk s.cfg.opQueryStatus 0 0 rest s) ∧
      exec .queryVolume s = .next (SentOk s.cfg.opQueryVolume 0 0 rest s) ∧
      exec .queryTrack s = .next (SentOk s.cfg.opQueryTrack 0 0 rest s)

/-- R131: VOL_SET is SEND of `min(v, 30)` with data high 0, in every state: it never fails for a range reason. Answered `ok`, the
frame's byte 6 and the recorded data are the clamped value, and `volume` is not written. The values that SentOk clears are the
spec's decision D11 (R124), and that the operand latch keeps its value is the model's choice (log 23). -/
def Obligations.VolumeSetClamps : Prop :=
  ∀ (v : Byte) (s : State), ∃ w : Byte, w.toNat = min v.toNat 30 ∧
    exec (.volSet v) s = exec (.send s.cfg.opVolSet 0 w) s ∧
    ∀ rest : List Answer, cmdReady s = true → s.cfg.hasSend = true → s.replies = .ok :: rest →
      exec (.volSet v) s = .next (SentOk s.cfg.opVolSet 0 w rest s) ∧
        (SentOk s.cfg.opVolSet 0 w rest s).lastCmdData.toNat = min v.toNat 30

/-- R123 for every named command: a failed handoff leaves the record S as it was, whatever the command. -/
def Obligations.CommandFailureLeavesState : Prop :=
  ∀ (i : Instr) (rest : List Answer) (s : State), sends i = true → cmdReady s = true → s.cfg.hasSend = true →
    s.replies = .fail :: rest → ∃ op hi lo, exec i s = .next (SentFail op hi lo rest s)

/-- R141, U10: a handoff that is not answered leaves the command outstanding: `tx_busy` is 1, the frame stands on the TX port,
and nothing of Device State, framer or buffer has changed. R141 gives a transaction model the outcome `never`, under which the
SEND step does not occur. That it is a step here, which ends with `tx_busy` (R36, the spec's decision D20) and the frame on the
port (R68, D1), is the model's choice (log 5). -/
def Obligations.UnansweredSendWaits : Prop :=
  ∀ (op hi lo : Byte) (s : State), cmdReady s = true → s.cfg.hasSend = true → s.replies = [] →
    exec (.send op hi lo) s = .next
      { s with
        txBusy := true, txCmd := ⟨op, hi, lo⟩, calls := s.calls ++ [.handoff [0x7E, 0xFF, 0x06, op, 0x01, hi, lo, 0xEF]] }

/-- R260, U6 (the treatment `refuse` is the spec's, for a caller that bypasses the handshake; log 15). -/
def Obligations.CommandRefusedWhileNotReady : Prop :=
  ∀ (i : Instr) (s : State), sends i = true → cmdReady s = false → exec i s = .refused .commandNotReady

/-- R122, R29, R268: no command writes `volume`, `track`, `status`, `media`, the framer, the buffer or `hstate`, whatever the
transport answers. -/
def Obligations.CommandsLeaveStatusAndFramer : Prop :=
  ∀ (i : Instr) (s t : State), sends i = true → exec i s = .next t →
    StatusFields t s.volume s.track s.status s.media ∧ t.fstate = s.fstate ∧ t.cursor = s.cursor ∧ t.buf = s.buf ∧
      t.hstate = s.hstate ∧ t.seq = s.seq ∧ t.cfg = s.cfg ∧ t.feedLog = s.feedLog

/-! ### Response Framer (`41_framer.md`) -/

/-- R151 (that the marker is stored in `buf[0]` is the spec's decision D3): start of frame. -/
def Obligations.StartMarkerOpensFrame : Prop :=
  ∀ s : State, s.fstate = .idle → 10 ≤ s.cfg.cap → s.buf.wf = true →
    ∃ t, exec .byteSofIdle s = .next t ∧
      (∀ a, t.buf.read a = if a = 0 then 0x7E else s.buf.read a) ∧
      { t with buf := s.buf } = { s with
        cursor := 1, fstate := .inFrame, feedLog := s.feedLog ++ [.cont], pulses := { s.pulses with feedDone := some .cont } }

/-- R152: a byte other than 0x7E in Idle, 0xEF included, changes no field and returns Continue. -/
def Obligations.StrayByteDiscarded : Prop :=
  ∀ (b : Byte) (s : State), s.fstate = .idle → b ≠ 0x7E →
    exec (.byteStrayIdle b) s =
      .next { s with feedLog := s.feedLog ++ [.cont], pulses := { s.pulses with feedDone := some .cont } }

/-- R153, R157, R160: a byte other than 0xEF received in a frame with room left, 0x7E included, is stored at the cursor. -/
def Obligations.PayloadByteAppended : Prop :=
  ∀ (b : Byte) (s : State), s.fstate = .inFrame → b ≠ 0xEF → s.cursor + 1 < s.cfg.cap → s.buf.wf = true →
    ∃ t, exec (.bytePayloadInframe b) s = .next t ∧
      (∀ a, t.buf.read a = if a = s.cursor then b else s.buf.read a) ∧
      { t with buf := s.buf } = { s with
        cursor := s.cursor + 1, feedLog := s.feedLog ++ [.cont], pulses := { s.pulses with feedDone := some .cont } }

/-- R155 (that the reset happens in the step that fills the last cell is the spec's decision D4): overflow. -/
def Obligations.OverflowResynchronises : Prop :=
  ∀ (b : Byte) (s : State), s.fstate = .inFrame → b ≠ 0xEF → s.cursor + 1 = s.cfg.cap → s.buf.wf = true →
    ∃ t, exec (.bytePayloadOverflow b) s = .next t ∧
      (∀ a, t.buf.read a = if a = s.cursor then b else s.buf.read a) ∧
      { t with buf := s.buf } = { s with
        cursor := 0, fstate := .idle, feedLog := s.feedLog ++ [.cont],
        pulses := { s.pulses with feedDone := some .cont } }

/-- R154, R171: the end marker completes a frame at any cursor: the byte is appended, the framer is idle again, PARSE reads
cells 3, 5 and 6 after the append and records the response, and the result is FrameReady for a code of the set of R100 and
FrameError for any other. That the last cell of a CAP above 10 is no exception is the spec's decision D4 (R156; log 14), and that
a short frame reads retained cells its decision D5 (R186; log 13); the model follows both (DEDUCED). -/
def Obligations.EndMarkerCompletes : Prop :=
  ∀ s : State, s.fstate = .inFrame → s.cfg.Admissible → s.cursor < s.cfg.cap → s.buf.wf = true →
    ∃ t r, exec .byteEofInframe s = .next t ∧
      r = (if t.lastRspCode ∈ s.cfg.responseCodes then FeedResult.frameReady else .frameError) ∧
      (∀ a, t.buf.read a = if a = s.cursor then 0xEF else s.buf.read a) ∧
      t.lastRspCode = (if s.cursor = 3 then 0xEF else s.buf.read 3) ∧
      t.lastRspData.toNat =
        256 * (if s.cursor = 5 then 0xEF else s.buf.read 5).toNat + (if s.cursor = 6 then 0xEF else s.buf.read 6).toNat ∧
      { t with buf := s.buf } = { s with
        volume := t.volume, track := t.track, status := t.status, media := t.media, lastRspCode := t.lastRspCode,
        lastRspData := t.lastRspData, lastRspValid := true, cursor := 0, fstate := .idle, feedLog := s.feedLog ++ [r],
        pulses := { s.pulses with feedDone := some r } }

/-- R173 to R182, with R183's result: what a completion step does to the four status fields and which result it returns, by the
code and the data that PARSE recorded. The code numbers are parameters. -/
def Obligations.CompletionByCode : Prop :=
  ∀ s t : State, s.fstate = .inFrame → s.cfg.Admissible → exec .byteEofInframe s = .next t →
    t.lastRspValid = true ∧
    t.volume = (if t.lastRspCode = s.cfg.rcVolume then t.lastRspData else s.volume) ∧
    t.track =
      (if t.lastRspCode = s.cfg.rcTrackCount then t.lastRspData
       else if t.lastRspCode = s.cfg.rcPlayCompleted ∨ (t.lastRspCode = s.cfg.rcStatus ∧ t.lastRspData = 0) then 0
       else s.track) ∧
    t.status = (if t.lastRspCode = s.cfg.rcStatus then t.lastRspData else s.status) ∧
    t.media = (s.media || decide (t.lastRspCode = s.cfg.rcMediaInserted)) ∧
    t.feedLog = s.feedLog ++ [if t.lastRspCode ∈ s.cfg.responseCodes then .frameReady else .frameError] ∧
    s.cfg.rcVolume = 0x43#8 ∧ s.cfg.rcTrackCount = 0x48#8

/-- R183: a completion whose code is none of the ten: FrameError, the last-response fields recorded, no status field touched, the
buffer and the framer as a recognised code leaves them. Where the frame is shorter than seven bytes, a cursor below 6, the code
or the data is read from retained cells, the spec's decision D5 (R186), which the model follows (log 13, DEDUCED). -/
def Obligations.UnrecognisedCodeTouchesNoStatus : Prop :=
  ∀ s : State, s.fstate = .inFrame → s.cfg.Admissible → s.cursor < s.cfg.cap → s.buf.wf = true →
    (if s.cursor = 3 then 0xEF else s.buf.read 3) ∉ s.cfg.responseCodes →
    ∃ t, exec .byteEofInframe s = .next t ∧
      (∀ a, t.buf.read a = if a = s.cursor then 0xEF else s.buf.read a) ∧
      t.lastRspData.toNat =
        256 * (if s.cursor = 5 then 0xEF else s.buf.read 5).toNat + (if s.cursor = 6 then 0xEF else s.buf.read 6).toNat ∧
      { t with buf := s.buf, lastRspData := 0 } = { s with
        lastRspCode := (if s.cursor = 3 then 0xEF else s.buf.read 3), lastRspData := 0, lastRspValid := true, cursor := 0,
        fstate := .idle, feedLog := s.feedLog ++ [.frameError], pulses := { s.pulses with feedDone := some .frameError } }

/-- R158: one result per FEED; it is FrameReady or FrameError exactly in a completion step, FrameReady exactly where the parser
accepted the code; the parser's writes are in place when the result is seen. -/
def Obligations.FeedResultContract : Prop :=
  ∀ (b : Byte) (s t : State), s.cfg.Admissible → feed b s = .ok t →
    ∃ r, t.feedLog = s.feedLog ++ [r] ∧ t.pulses.feedDone = some r ∧
      (r ≠ .cont ↔ s.fstate = .inFrame ∧ b = 0xEF) ∧
      (r = .frameReady ↔ (s.fstate = .inFrame ∧ b = 0xEF) ∧ t.lastRspCode ∈ s.cfg.responseCodes) ∧
      (r = .cont → { t with buf := s.buf, fstate := s.fstate, cursor := s.cursor, feedLog := s.feedLog, pulses := s.pulses } = s)

/-- R162 (derived by the spec): a byte sequence without 0x7E leaves an idle framer and everything else as it was and returns
only Continue. -/
def Obligations.StrayBytesChangeNothing : Prop :=
  ∀ (bs : List Byte) (s : State), s.fstate = .idle → 0x7E#8 ∉ bs →
    ∃ t, feedAll bs s = .ok t ∧ t.feedLog = s.feedLog ++ List.replicate bs.length .cont ∧
      { t with feedLog := s.feedLog, pulses := s.pulses } = s

/-- R163 (derived by the spec): from InFrame at cursor `c` the framer is idle again within `CAP - c` bytes, whatever they are. -/
def Obligations.FramerReturnsToIdle : Prop :=
  ∀ (bs : List Byte) (s : State), MachineInv s → s.fstate = .inFrame → bs.length = s.cfg.cap - s.cursor →
    ∃ k t, k ≤ bs.length ∧ feedAll (bs.take k) s = .ok t ∧ t.fstate = .idle ∧ t.cursor = 0

/-- R160, R155 (derived by the spec): a frame cut short after `k` payload bytes, none of them 0xEF, and followed at once by a
whole nominal frame: where the two together fill the buffer before the second frame's end marker, and the residue, the bytes of
the second frame after those that fill the buffer, holds no 0x7E (so that no third frame opens), no response is recorded: every
result is Continue, and everything but the buffer, the result log and the output pulse is as before. -/
def Obligations.TruncatedFrameSwallowsNext : Prop :=
  ∀ (bs : List Byte) (code : Byte) (f : RxFields) (s : State), MachineInv s → s.fstate = .idle → eof ∉ bs → f.Nominal code →
    1 + bs.length < s.cfg.cap → s.cfg.cap ≤ 10 + bs.length →
    (0x7E#8 ∉ (rxFrame code f).drop (s.cfg.cap - (1 + bs.length))) →
    ∃ t, feedAll (sof :: bs ++ rxFrame code f) s = .ok t ∧
      t.feedLog = s.feedLog ++ List.replicate (11 + bs.length) .cont ∧
      { t with buf := s.buf, feedLog := s.feedLog, pulses := s.pulses } = s

/-- R150, R159, R65, R69, R157: a received byte is never refused and never faults, while a SEND is outstanding, while INIT runs,
and in either lifecycle state; and it changes neither. -/
def Obligations.ReceptionAlwaysRuns : Prop :=
  ∀ (i : Instr) (s : State), MachineInv s → receives i = true →
    ∃ t, exec i s = .next t ∧ t.txBusy = s.txBusy ∧ t.txCmd = s.txCmd ∧ t.seq = s.seq ∧ t.hstate = s.hstate ∧
      t.lastCmdOp = s.lastCmdOp ∧ t.lastCmdData = s.lastCmdData ∧ t.txLog = s.txLog ∧ t.hostLog = s.hostLog ∧
      t.calls = s.calls ∧ t.cfg = s.cfg

/-! ### Response Parser (`42_parser.md`): the inbound frames of the table, from Idle -/

/-- R173 (the number of the code is a parameter): media-inserted. -/
def Obligations.MediaInsertedFrame : Prop :=
  ∀ (f : RxFields) (s : State), s.fstate = .idle → s.cfg.Admissible → s.buf.wf = true →
    f.Nominal s.cfg.rcMediaInserted →
    ∃ t, exec (.rspMediaInserted f) s = .next t ∧ FrameReceived s.cfg.rcMediaInserted f .frameReady s t ∧
      StatusFields t s.volume s.track s.status true

/-- R174: play-completed. -/
def Obligations.PlayCompletedFrame : Prop :=
  ∀ (f : RxFields) (s : State), s.fstate = .idle → s.cfg.Admissible → s.buf.wf = true →
    f.Nominal s.cfg.rcPlayCompleted →
    ∃ t, exec (.rspPlayCompleted f) s = .next t ∧ FrameReceived s.cfg.rcPlayCompleted f .frameReady s t ∧
      StatusFields t s.volume 0 s.status s.media

/-- R177: status; `track` is cleared exactly when all 16 bits of the data are 0. -/
def Obligations.StatusFrame : Prop :=
  ∀ (f : RxFields) (s : State), s.fstate = .idle → s.cfg.Admissible → s.buf.wf = true →
    f.Nominal s.cfg.rcStatus →
    ∃ t, exec (.rspStatus f) s = .next t ∧ FrameReceived s.cfg.rcStatus f .frameReady s t ∧
      StatusFields t s.volume (if f.hi = 0 ∧ f.lo = 0 then 0 else s.track) (joinBytes f.hi f.lo) s.media

/-- R178: volume report, code 0x43; all 16 bits, no clamp. -/
def Obligations.VolumeFrame : Prop :=
  ∀ (f : RxFields) (s : State), s.fstate = .idle → s.cfg.Admissible → s.buf.wf = true → f.Nominal 0x43#8 →
    ∃ t, exec (.rspVolume f) s = .next t ∧ FrameReceived 0x43#8 f .frameReady s t ∧
      StatusFields t (joinBytes f.hi f.lo) s.track s.status s.media ∧
      t.volume.toNat = 256 * f.hi.toNat + f.lo.toNat

/-- R179: track-count report, code 0x48; all 16 bits. -/
def Obligations.TrackCountFrame : Prop :=
  ∀ (f : RxFields) (s : State), s.fstate = .idle → s.cfg.Admissible → s.buf.wf = true → f.Nominal 0x48#8 →
    ∃ t, exec (.rspTrackCount f) s = .next t ∧ FrameReceived 0x48#8 f .frameReady s t ∧
      StatusFields t s.volume (joinBytes f.hi f.lo) s.status s.media ∧
      t.track.toNat = 256 * f.hi.toNat + f.lo.toNat

/-- R175, R176, R180, R181, R182: the five recognised responses that write no status field. -/
def Obligations.RecordedOnlyFrames : Prop :=
  ∀ (f : RxFields) (s : State), s.fstate = .idle → s.cfg.Admissible → s.buf.wf = true →
    ∀ row ∈ [(Instr.rspError f, s.cfg.rcError), (.rspAck f, s.cfg.rcAck), (.rspFolder f, s.cfg.rcFolder),
        (.rspFolderTrackCount f, s.cfg.rcFolderTrackCount), (.rspFolderFile f, s.cfg.rcFolderFile)],
      f.Nominal row.2 →
        ∃ t, exec row.1 s = .next t ∧ FrameReceived row.2 f .frameReady s t ∧
          StatusFields t s.volume s.track s.status s.media

/-- R183, R102: a frame with any other code. -/
def Obligations.UnrecognisedFrame : Prop :=
  ∀ (code : Byte) (f : RxFields) (s : State), s.fstate = .idle → s.cfg.Admissible → s.buf.wf = true → f.Nominal code →
    code ∉ s.cfg.responseCodes →
    ∃ t, exec (.rspUnrecognized code f) s = .next t ∧ FrameReceived code f .frameError s t ∧
      StatusFields t s.volume s.track s.status s.media

/-- The example of R256 (derived by the spec), with R154 and R186: an end marker at data-high of a track-count report ends the
frame there, at length 6: the code is the frame's, the data is 0xEF and the stale low byte, and the four bytes after it are
stray. Said of the row RSP_TRACK_COUNT alone. That the low byte is the retained cell's is the spec's decision D5 (log 13). -/
def Obligations.EndMarkerInDataEndsFrame : Prop :=
  ∀ (f : RxFields) (s : State), s.fstate = .idle → s.cfg.Admissible → s.buf.wf = true →
    f.version ≠ eof → f.length ≠ eof → f.feedback ≠ eof → f.hi = eof → f.lo ≠ sof → f.rsv7 ≠ sof → f.rsv8 ≠ sof →
    ∃ t, exec (.rspTrackCount f) s = .next t ∧ t.track = joinBytes 0xEF (s.buf.read 6) ∧ t.lastRspCode = 0x48#8 ∧
      t.lastRspData = joinBytes 0xEF (s.buf.read 6) ∧ t.fstate = .idle ∧ t.cursor = 0 ∧
      t.feedLog = s.feedLog ++ List.replicate 5 .cont ++ [.frameReady] ++ List.replicate 4 .cont ∧
      (∀ a, 6 ≤ a → t.buf.read a = s.buf.read a)

/-! ### Lifecycle (`43_lifecycle.md`) -/

/-- R202, R221: INIT without the delay or the send capability. -/
def Obligations.InitNeedsCapabilities : Prop :=
  ∀ s : State, cmdReady s = true → (s.cfg.hasDelay = false ∨ s.cfg.hasSend = false) →
    exec .init s = .next { s with
      hostLog := s.hostLog ++ [.status .invalidParameter], pulses := { s.pulses with lifeDone := some .invalidParameter } }

/-- R203, R205, R209, R210, R212 (the resets are the spec's decision D13, the ignored delay answers D16): INIT with every answer
at hand. The hook is skipped where the capability is absent; the answers of the three delays do not matter. That INIT runs
through in one step where every answer stands ready is the model's choice (log 29; R203: INIT is not one atomic step); that its two
SENDs return no result of their own and `cmd_done` does not pulse is the model's reading (log 27, DEDUCED). -/
def Obligations.InitCompletes : Prop :=
  ∀ (s : State) (d1 d2 d3 : Answer) (rest : List Answer), cmdReady s = true → s.hstate = .uninitialized →
    s.cfg.hasDelay = true → s.cfg.hasSend = true →
    s.replies = (if s.cfg.hasInit then [.ok] else []) ++ [d1, .ok, d2, .ok, d3] ++ rest →
    ∃ t, exec .init s = .next t ∧
      t.hstate = .ready ∧ t.lastCmdOp = s.cfg.opSelectDevice ∧ t.lastCmdData = s.cfg.selectData ∧
      StatusFields t 0 0 0 false ∧ t.lastRspCode = 0 ∧ t.lastRspData = 0 ∧ t.lastRspValid = false ∧
      t.fstate = .idle ∧ t.cursor = 0 ∧ t.buf = s.buf ∧ cmdReady t = true ∧ t.cfg = s.cfg ∧ t.replies = rest ∧
      t.agenda = s.agenda ∧ t.feedLog = s.feedLog ∧ t.hostLog = s.hostLog ++ [.status .ok] ∧
      t.pulses = { s.pulses with lifeDone := some .ok } ∧
      t.txLog = s.txLog ++
        [encodeFrame s.cfg.opReset (hiByte s.cfg.resetData) (loByte s.cfg.resetData),
         encodeFrame s.cfg.opSelectDevice (hiByte s.cfg.selectData) (loByte s.cfg.selectData)] ∧
      t.calls = s.calls ++ (if s.cfg.hasInit then [.hookInit] else []) ++
        [.delay s.cfg.tStabilize,
         .handoff (encodeFrame s.cfg.opReset (hiByte s.cfg.resetData) (loByte s.cfg.resetData)),
         .delay s.cfg.tAfterReset,
         .handoff (encodeFrame s.cfg.opSelectDevice (hiByte s.cfg.selectData) (loByte s.cfg.selectData)),
         .delay s.cfg.tAfterSelect]

/-- R205, R39 (the spec's decision D13): the point where INIT waits for its first answer: everything that the column "INIT
start" resets is reset, `buf` and `hstate` are untouched. -/
def Obligations.InitStartResets : Prop :=
  ∀ s : State, cmdReady s = true → s.hstate = .uninitialized → s.cfg.hasDelay = true → s.cfg.hasSend = true →
    s.replies = [] →
    ∃ t, exec .init s = .next t ∧ HandlerReset t ∧ t.buf = s.buf ∧ t.hstate = .uninitialized ∧ t.txBusy = false ∧
      t.seq = (if s.cfg.hasInit then .initHook else .initStabilize) ∧ t.hostLog = s.hostLog ∧ t.txLog = s.txLog ∧
      t.calls = s.calls ++ [if s.cfg.hasInit then .hookInit else .delay s.cfg.tStabilize]

/-- R204 (the spec's decision D17): the first failing step ends INIT: a failing hook, a failing reset command, a failing
device-select command. What was written before stands, no later step runs, `hstate` is not Ready, the result is
TransportError. That INIT runs in one step through the answers that stand ready is the model's choice (log 29); that a SEND of INIT
returns no result of its own, so that the host sees TransportError alone, is the model's reading (log 27, DEDUCED). -/
def Obligations.InitFailureAborts : Prop :=
  ∀ (s : State) (d1 d2 : Answer) (rest : List Answer), cmdReady s = true → s.hstate = .uninitialized →
    s.cfg.hasDelay = true → s.cfg.hasSend = true →
    (s.cfg.hasInit = true → s.replies = .fail :: rest →
      ∃ t, exec .init s = .next t ∧ HandlerReset t ∧ t.hstate = .uninitialized ∧ t.txLog = s.txLog ∧
        t.calls = s.calls ++ [.hookInit] ∧ t.hostLog = s.hostLog ++ [.status .transportError] ∧ t.buf = s.buf ∧
        t.replies = rest ∧ cmdReady t = true) ∧
    (s.replies = (if s.cfg.hasInit then [.ok] else []) ++ [d1, .fail] ++ rest →
      ∃ t, exec .init s = .next t ∧ HandlerReset t ∧ t.hstate = .uninitialized ∧ t.txLog = s.txLog ∧
        t.calls = s.calls ++ (if s.cfg.hasInit then [.hookInit] else []) ++
          [.delay s.cfg.tStabilize,
           .handoff (encodeFrame s.cfg.opReset (hiByte s.cfg.resetData) (loByte s.cfg.resetData))] ∧
        t.hostLog = s.hostLog ++ [.status .transportError] ∧ t.buf = s.buf ∧ t.replies = rest ∧ cmdReady t = true) ∧
    (s.replies = (if s.cfg.hasInit then [.ok] else []) ++ [d1, .ok, d2, .fail] ++ rest →
      ∃ t, exec .init s = .next t ∧ t.lastCmdOp = s.cfg.opReset ∧ t.lastCmdData = s.cfg.resetData ∧
        StatusFields t 0 0 0 false ∧ t.lastRspCode = 0 ∧ t.lastRspData = 0 ∧ t.lastRspValid = false ∧
        t.fstate = .idle ∧ t.cursor = 0 ∧ t.hstate = .uninitialized ∧
        t.txLog = s.txLog ++ [encodeFrame s.cfg.opReset (hiByte s.cfg.resetData) (loByte s.cfg.resetData)] ∧
        t.calls = s.calls ++ (if s.cfg.hasInit then [.hookInit] else []) ++
          [.delay s.cfg.tStabilize,
           .handoff (encodeFrame s.cfg.opReset (hiByte s.cfg.resetData) (loByte s.cfg.resetData)),
           .delay s.cfg.tAfterReset,
           .handoff (encodeFrame s.cfg.opSelectDevice (hiByte s.cfg.selectData) (loByte s.cfg.selectData))] ∧
        t.hostLog = s.hostLog ++ [.status .transportError] ∧ t.buf = s.buf ∧ t.replies = rest ∧ cmdReady t = true)

/-- R206, U4 (the treatment `refuse` is the spec's decision D15): INIT while Ready. -/
def Obligations.InitRefusedWhileReady : Prop :=
  ∀ s : State, cmdReady s = true → s.hstate = .ready → s.cfg.hasDelay = true → s.cfg.hasSend = true →
    exec .init s = .refused .initWhileReady

/-- R207, R208, R39 (the resets are the spec's decision D13): DEINIT returns Ok whatever the hook answers, and without a hook at
once. -/
def Obligations.DeinitCompletes : Prop :=
  ∀ (s : State) (a : Answer) (rest : List Answer), cmdReady s = true →
    s.replies = (if s.cfg.hasDeinit then [a] else []) ++ rest →
    ∃ t, exec .deinit s = .next t ∧
      t = { s with
        volume := 0, track := 0, status := 0, media := false, lastCmdOp := 0, lastCmdData := 0, lastRspCode := 0,
        lastRspData := 0, lastRspValid := false, fstate := .idle, cursor := 0, hstate := .uninitialized, replies := rest,
        calls := s.calls ++ (if s.cfg.hasDeinit then [.hookDeinit] else []), hostLog := s.hostLog ++ [.status .ok],
        pulses := { s.pulses with lifeDone := some .ok } }

/-- R72 (the spec's decision D1), and log 16 for the operations: INIT and DEINIT are ignored while a handoff is outstanding or
the sequencer runs. -/
def Obligations.LifecycleIgnoredWhileBusy : Prop :=
  ∀ s : State, cmdReady s = false → exec .init s = .next s ∧ exec .deinit s = .next s

/-- R211, R212 (derived by the spec): an acknowledgement that arrives at any position of INIT is parsed and the sequencer stays
where it is. The next SEND of INIT that is answered `ok` clears it: the reset command from the hook, the first delay and the
handoff itself on, the device-select command from the second delay on (V-L10) and from its own handoff; after the last SEND
nothing clears it and INIT ends Ready. The answers `d`, `e` of the delays do not matter. -/
def Obligations.InitGoesOnAfterReception : Prop :=
  ∀ (f : RxFields) (s : State) (d e : Answer), MachineInv s → s.seq ≠ .idle → s.fstate = .idle → f.Nominal s.cfg.rcAck →
    ∃ t, exec (.rspAck f) s = .next t ∧
      t.lastRspValid = true ∧ t.lastRspCode = s.cfg.rcAck ∧ t.lastRspData = joinBytes f.hi f.lo ∧ t.seq = s.seq ∧
      t.txBusy = s.txBusy ∧ t.txCmd = s.txCmd ∧
      (s.seq = .initHook →
        HandoffCommitted s.cfg.opReset s.cfg.resetData .initAfterReset s (answer .ok (answer d (answer .ok t)))) ∧
      (s.seq = .initStabilize →
        HandoffCommitted s.cfg.opReset s.cfg.resetData .initAfterReset s (answer .ok (answer d t))) ∧
      (s.seq = .initReset → HandoffCommitted s.cfg.opReset s.cfg.resetData .initAfterReset s (answer .ok t)) ∧
      (s.seq = .initAfterReset →
        HandoffCommitted s.cfg.opSelectDevice s.cfg.selectData .initAfterSelect s (answer .ok (answer d t)) ∧
          (answer e (answer .ok (answer d t))).hstate = .ready ∧
          (answer e (answer .ok (answer d t))).lastRspValid = false) ∧
      (s.seq = .initSelect →
        HandoffCommitted s.cfg.opSelectDevice s.cfg.selectData .initAfterSelect s (answer .ok t) ∧
          (answer e (answer .ok t)).hstate = .ready ∧ (answer e (answer .ok t)).lastRspValid = false) ∧
      (s.seq = .initAfterSelect →
        (answer d t).hstate = .ready ∧ (answer d t).lastRspValid = true ∧ (answer d t).lastRspCode = s.cfg.rcAck)

/-! ### Reset and the whole machine -/

/-- R250, R39 (the spec's decision D12): what hardware reset leaves. -/
def Obligations.ResetValues : Prop :=
  HandlerReset State.reset ∧ (∀ a, State.reset.buf.read a = 0) ∧ State.reset.hstate = .uninitialized ∧
    State.reset.txBusy = false ∧ State.reset.txLog = [] ∧ State.reset.calls = []

/-- The invariant holds after reset. -/
def Obligations.ResetMeetsInvariant : Prop := MachineInv State.reset

/-- R32 (derived by the spec), R28, R36, R60, R90, R200: every step keeps the invariant: the framer's pair, the buffer's
canonical form, the last-response fields while none is valid, the sequencer's positions, the frames on the TX log. -/
def Obligations.StepKeepsInvariant : Prop :=
  ∀ s t : State, MachineInv s → step s = .next t → MachineInv t

/-- R183, R231, R232, R153: under the invariant no step faults. -/
def Obligations.StepNeverFaults : Prop := ∀ s : State, MachineInv s → NoFault (step s)

/-- R9: no operation writes the configuration. -/
def Obligations.StepKeepsConfiguration : Prop := ∀ s t : State, step s = .next t → t.cfg = s.cfg

/-- R25, R266: only INIT, DEINIT and hardware reset clear `media`; R34, R200: only they write `hstate`. Said of every other
instruction. -/
def Obligations.MediaAndLifecycleAreSticky : Prop :=
  ∀ (i : Instr) (s t : State), i ≠ .init → i ≠ .deinit → exec i s = .next t →
    (s.media = true → t.media = true) ∧ t.hstate = s.hstate

/-- R29, R26: the last-command fields are written only by a SEND and by the resets: an instruction that receives bytes, and
ENCODE, leave them. R29: the four status fields are written only by PARSE and the resets: a command and ENCODE leave them. -/
def Obligations.DeviceStateWriters : Prop :=
  ∀ (i : Instr) (s t : State), i ≠ .init → i ≠ .deinit → exec i s = .next t →
    (sends i = false → t.lastCmdOp = s.lastCmdOp ∧ t.lastCmdData = s.lastCmdData) ∧
    (receives i = false → StatusFields t s.volume s.track s.status s.media)

/-- R263, R77 (same-cycle order is the spec's decision D18): a response completed before a SEND's commit is wiped by it, one
completed after it survives; the status fields keep what the response wrote. Said of the two orders of an end marker and a
committed SEND. -/
def Obligations.SendRacesResponse : Prop :=
  ∀ (op hi lo : Byte) (rest : List Answer) (s t u v w : State), MachineInv s → s.fstate = .inFrame → cmdReady s = true →
    s.cfg.hasSend = true → s.replies = .ok :: rest →
    exec .byteEofInframe s = .next t → exec (.send op hi lo) t = .next u →
    exec (.send op hi lo) s = .next v → exec .byteEofInframe v = .next w →
    u.lastRspValid = false ∧ u.lastRspCode = 0 ∧ u.lastRspData = 0 ∧ w.lastRspValid = true ∧
      w.lastRspCode = t.lastRspCode ∧ w.lastRspData = t.lastRspData ∧
      StatusFields u w.volume w.track w.status w.media ∧ u.lastCmdOp = op ∧ w.lastCmdOp = op

/-! ### Port level (`20_memory.md` R66 to R72, the spec's decision D1) -/

/-- R66, R230 g: `rst` wins over every other input. In the cycle with `rst = 1` every output pulse is suppressed, whatever the step
before registered, while the status outputs still show the registers (R71; log 31, DEDUCED); at its edge every register takes its
reset value, so that no pulse shows in the cycle after it either (the pulse registers have none: log 11). -/
def Obligations.ResetPinWins : Prop :=
  ∀ (p : PortIn) (s : State), p.rst = true →
    NoPulse (portOut s p.rst) ∧ StatusOutputs s (portOut s p.rst) ∧
    ∃ t, clockEdge p s = .ok t ∧ HandlerReset t ∧ (∀ a, t.buf.read a = 0) ∧ t.hstate = .uninitialized ∧
      t.txBusy = false ∧ t.seq = .idle ∧ t.pulses = Pulses.none ∧ t.cfg = s.cfg ∧ t.txLog = s.txLog ∧ t.calls = s.calls ∧
      ∀ rst : Bool, NoPulse (portOut t rst)

/-- R67, R68, R226: a command on the port, answered by `tx_ack` after any number of idle cycles: `tx_valid` and `tx_frame` hold
until then; the final state is that of the transaction SEND (R124), and `cmd_status` is 0. Without the send capability the
operands are sampled and `tx_busy` rises all the same; in the next cycle `cmd_done` pulses with `cmd_status` 1 while `cmd_ready` is
0, nothing is presented on the TX port, and whatever the pins carry in that cycle nothing is accepted; that `tx_busy` falls at the
end of that cycle is the model's reading of R36 and R67 (log 19, DEDUCED). -/
def Obligations.PortSendCommits : Prop :=
  ∀ (op hi lo : Byte) (s : State), cmdReady s = true → s.pulses = Pulses.none →
    (s.cfg.hasSend = true →
      ∃ s1, clockEdge { cmdValid := true, cmdOp := op, cmdHi := hi, cmdLo := lo } s = .ok s1 ∧
        (portOut s1).cmdReady = false ∧ (portOut s1).txValid = true ∧
        (portOut s1).txFrame = some (0x7E#8 ++ 0xFF#8 ++ 0x06#8 ++ op ++ 0x01#8 ++ hi ++ lo ++ 0xEF#8) ∧
        clockEdge {} s1 = .ok s1 ∧
        clockEdge { txAck := true } s1 = .ok (SentOk op hi lo s.replies s) ∧
        (portOut (SentOk op hi lo s.replies s)).cmdDone = true ∧
        (portOut (SentOk op hi lo s.replies s)).cmdStatus = some 0 ∧
        (portOut (SentOk op hi lo s.replies s)).txValid = false) ∧
    (s.cfg.hasSend = false →
      ∃ s1, clockEdge { cmdValid := true, cmdOp := op, cmdHi := hi, cmdLo := lo } s = .ok s1 ∧
        s1 = { s with
          txBusy := true, txCmd := ⟨op, hi, lo⟩, hostLog := s.hostLog ++ [.status .invalidParameter],
          pulses := { s.pulses with cmdDone := some .invalidParameter } } ∧
        (portOut s1).cmdReady = false ∧ (portOut s1).txValid = false ∧ (portOut s1).txFrame = none ∧
        (portOut s1).cmdDone = true ∧ (portOut s1).cmdStatus = some 1 ∧
        ∀ p : PortIn, p.rst = false → p.rxValid = false → clockEdge p s1 = .ok { s1 with txBusy := false })

/-- R68, R230 e: `tx_nak` fails the handoff, with `tx_ack` raised or not; `cmd_status` is 2. -/
def Obligations.PortNakWins : Prop :=
  ∀ (ack : Bool) (s : State), s.txBusy = true → s.cfg.hasSend = true → s.seq = .idle →
    ∃ t, clockEdge { txAck := ack, txNak := true } s = .ok t ∧
      t = { s with
        txBusy := false, hostLog := s.hostLog ++ [.status .transportError],
        pulses := { s.pulses with cmdDone := some .transportError } } ∧
      (portOut t).cmdStatus = some 2

/-- R77, R263, R230 d: a byte and the answer of a handoff in one cycle: the FEED is applied first, then the commit. The order is
the spec's decision D18 and the ports its decision D1; the model follows them (log 22, DEDUCED). -/
def Obligations.PortFeedBeforeCommit : Prop :=
  ∀ (b : Byte) (s t : State), s.txBusy = true → s.cfg.hasSend = true → s.seq = .idle → feed b s = .ok t →
    ∃ u, clockEdge { rxValid := true, rxByte := b, txAck := true } s = .ok u ∧
      u = { t with
        lastCmdOp := s.txCmd.op, lastCmdData := joinBytes s.txCmd.hi s.txCmd.lo, lastRspCode := 0, lastRspData := 0,
        lastRspValid := false, txBusy := false,
        txLog := s.txLog ++ [encodeFrame s.txCmd.op s.txCmd.hi s.txCmd.lo], hostLog := s.hostLog ++ [.status .ok],
        pulses := { t.pulses with cmdDone := some .ok } }

/-- R72, R206, R230 f: in an accepting cycle a request alone is accepted, `init_req` in Uninitialized and `deinit_req` in either
lifecycle state; what it starts is what the operation does up to its first answer (`InitStartResets`, `DeinitCompletes`).
`deinit_req` wins over `init_req`; `init_req` alone is ignored in Ready; both are ignored in a cycle that is not accepting, at
the end of which only the rejection of a command without the send capability ends (log 19). -/
def Obligations.PortLifecycleRequests : Prop :=
  ∀ s : State,
    (cmdReady s = true → s.hstate = .uninitialized →
      clockEdge { initReq := true } s = .ok (acceptInit s) ∧ (s.replies = [] → exec .init s = .next (acceptInit s))) ∧
    (cmdReady s = true →
      clockEdge { deinitReq := true } s = .ok (acceptDeinit s) ∧
        (s.replies = [] → exec .deinit s = .next (acceptDeinit s)) ∧
        clockEdge { initReq := true, deinitReq := true } s = .ok (acceptDeinit s)) ∧
    (cmdReady s = true → s.hstate = .ready → clockEdge { initReq := true } s = .ok s) ∧
    (cmdReady s = false →
      ∀ i d : Bool, clockEdge { initReq := i, deinitReq := d } s = .ok { s with txBusy := s.txBusy && s.cfg.hasSend })

/-- R69, R70, R71, R226, R31: a received byte on the port is one FEED. In the next cycle the four pulses are the result that FEED
returned (unless `rst` is 1 there: `ResetPinWins`), and all status outputs are the registers FEED left, the parser's writes among
them. Where no byte was received and no result stands from before, the four outputs are 0. In every cycle, under `rst` too, the
status outputs are the registers, and the `cursor` output has the least number of bits that hold every cursor below CAP, 4 for CAP
10. That the edge also ends the rejection of a command without the send capability is the model's reading (log 19). -/
def Obligations.PortFeedResult : Prop :=
  (∀ (b : Byte) (s t : State), feed b s = .ok t →
    ∃ r u, t.feedLog = s.feedLog ++ [r] ∧ clockEdge { rxValid := true, rxByte := b } s = .ok u ∧
      u = { t with txBusy := t.txBusy && t.cfg.hasSend } ∧
      (portOut u).feedDone = true ∧
      (portOut u).feedResult = (match r with | .cont => 0 | .frameReady => 1 | .frameError => 2) ∧
      ((portOut u).frameReady = true ↔ r = .frameReady) ∧ ((portOut u).frameError = true ↔ r = .frameError) ∧
      StatusOutputs t (portOut u)) ∧
    (∀ (p : PortIn) (s u : State), p.rxValid = false → s.pulses.feedDone = none → clockEdge p s = .ok u →
      (portOut u).feedDone = false ∧ (portOut u).feedResult = 0 ∧ (portOut u).frameReady = false ∧
        (portOut u).frameError = false) ∧
    (∀ (s : State) (rst : Bool), StatusOutputs s (portOut s rst)) ∧
    (∀ cap : Nat, 2 ≤ cap → cap ≤ 2 ^ cursorBits cap ∧ 2 ^ (cursorBits cap - 1) < cap) ∧ cursorBits 10 = 4

/-! ### Presentation, decoding and encoding -/

/-- R10, R65, R66, R77 (the agenda and its events are the model's, log 4): a presented word that decodes is taken from the agenda
and its instruction is executed; a word that is no row's instance is refused; a named operation is executed; a late answer goes to
the outstanding call, and the answers that stand ready to the calls after it, or has no effect where nothing is outstanding
(log 5, log 28); an edge event is one clock edge with its pins; an empty agenda is an idle block. The one-cycle outputs of the step
before end, and, but for an edge, which sees that cycle itself, so does `tx_busy` of a command rejected for want of the send
capability (log 19). -/
def Obligations.StepRunsPresentedInstruction : Prop :=
  ∀ (s : State) (rest : List Event) (u v : State),
    u = { s with agenda := rest, pulses := ⟨none, none, none⟩ } → v = { u with txBusy := s.txBusy && s.cfg.hasSend } →
    (∀ r i, s.agenda = .word r :: rest → decode s.cfg ⟨s.fstate, s.cursor⟩ r = .ok i → step s = exec i v) ∧
    (∀ r e, s.agenda = .word r :: rest → decode s.cfg ⟨s.fstate, s.cursor⟩ r = .error e →
      step s = .refused (.noSuchWord e)) ∧
    (∀ i, s.agenda = .call i :: rest → step s = exec i v) ∧
    (∀ a, s.agenda = .reply a :: rest → cmdReady v = true → step s = .next v) ∧
    (∀ a, s.agenda = .reply a :: rest → cmdReady v = false → step s = .next (settle (answer a v))) ∧
    (∀ p t, s.agenda = .edge p :: rest → clockEdge p u = .ok t → step s = .next t) ∧
    (∀ p f, s.agenda = .edge p :: rest → clockEdge p u = .error f → step s = .fault f) ∧
    (s.agenda = [] → rest = [] → step s = .next v)

/-- R141, R65, R124, R123 (the form of a late answer is the model's, log 5): a late answer goes to the outstanding handoff. `ok`
commits it: the five fields of R124, the TX log, `Ok` to the host; `fail` ends it with TransportError and no field of S changed.
Every field of the next state is stated. The cleared values are the spec's decision D11, and the operand latch keeps its value
(log 23). -/
def Obligations.LateAnswerCommits : Prop :=
  ∀ (s : State) (rest : List Event), s.txBusy = true → s.cfg.hasSend = true → s.seq = .idle →
    (s.agenda = .reply .ok :: rest →
      step s = .next
        { s with
          agenda := rest, lastCmdOp := s.txCmd.op, lastCmdData := joinBytes s.txCmd.hi s.txCmd.lo, lastRspCode := 0,
          lastRspData := 0, lastRspValid := false, txBusy := false,
          txLog := s.txLog ++ [[0x7E, 0xFF, 0x06, s.txCmd.op, 0x01, s.txCmd.hi, s.txCmd.lo, 0xEF]],
          hostLog := s.hostLog ++ [.status .ok], pulses := ⟨some .ok, none, none⟩ }) ∧
    (s.agenda = .reply .fail :: rest →
      step s = .next
        { s with
          agenda := rest, txBusy := false, hostLog := s.hostLog ++ [.status .transportError],
          pulses := ⟨some .transportError, none, none⟩ })

/-- R90, R91, R95, R98, R104 (default opcodes and codes, log 2): a few words of the table, written out. That a lone 0xEF is read in
a frame and every other lone byte in Idle is the model's choice (log 6); that the frame of VOL_SET with data 0x2D, which no named
command emits, reads as SEND is the model's reading of R107 (log 25, DEDUCED). -/
def Obligations.TableWordsDecode : Prop :=
  decodeTableWord 64 0x7EFF0601010000EF = some .next ∧
    decodeTableWord 64 0x7EFF06030101EFEF = some (.playIndex 0x01EF) ∧
    decodeTableWord 64 0x7EFF060601001EEF = some (.volSet 30) ∧
    decodeTableWord 64 0x7EFF060601002DEF = some (.send 0x06 0x00 0x2D) ∧
    decodeTableWord 80 0x7EFF06430000_1E0000EF = some (.rspVolume ⟨0xFF, 0x06, 0x00, 0x00, 0x1E, 0x00, 0x00⟩) ∧
    decodeTableWord 80 0x7EFF0699001234_0000EF = some (.rspUnrecognized 0x99 ⟨0xFF, 0x06, 0x00, 0x12, 0x34, 0x00, 0x00⟩) ∧
    decodeTableWord 24 0x061E2D = some (.encode 0x06 0x1E 0x2D) ∧
    decodeTableWord 8 0x7E = some .byteSofIdle ∧ decodeTableWord 8 0xEF = some .byteEofInframe ∧
    decodeTableWord 8 0x42 = some (.byteStrayIdle 0x42) ∧ decodeTableWord 64 0x7EFF0601000000EF = none

/-- R90, R91, R98, R104, R107: decoding the word of a canonical instruction gives it back: for every row of the table, at every
operand that makes an instance of its row, in a framer state in which the row applies. Canonical leaves out what shares another
instruction's word: VOL_SET 31 to 255, whose word is that of VOL_SET 30 (R131), and a SEND of the bytes that a named command emits
(R107). It keeps a SEND of OP_VOL_SET with data above 30 and one of OP_RESET with data other than RESET_DATA: that their frames
decode to SEND, although the masks of the rows VOL_SET and RESET leave those bytes free, is the model's reading (log 25, DEDUCED).
The opcodes must be distinct for the fifteen names to be told apart (R105 does not require it). -/
def Obligations.DecodeInvertsEncode : Prop :=
  ∀ (c : Cfg) (v : FramerView) (i : Instr), c.Admissible → c.opcodes.Nodup → i.wellFormed c = true →
    i.Canonical c → i.rowApplies c v = true → decode c v (encode c i) = .ok i

/-- R90, R91, R95, R98, R107: whatever word decodes to an instruction is that instruction's word, and the instruction is an
instance of its row in a framer state in which the row applies: no byte of a word is dropped, for every configuration and every
word. Of frames of OP_VOL_SET with data above 30 and of OP_RESET with data other than RESET_DATA it holds only because the model
reads them as SEND of their bytes, although the masks of the rows VOL_SET and RESET leave those bytes free (log 25, DEDUCED). -/
def Obligations.EncodeInvertsDecode : Prop :=
  ∀ (c : Cfg) (v : FramerView) (r : Request) (i : Instr), decode c v r = .ok i →
    encode c i = r ∧ i.wellFormed c = true ∧ i.rowApplies c v = true

/-! ### Capability and lifecycle ports (`20_memory.md` R72, the spec's decision D1) -/

/-- R72, R203, R204, R207, R208, R210 at port level (the spec's decisions D1, D16, D17). Outputs: `hook_init_req`,
`hook_deinit_req` and `delay_req` are 1 exactly at the positions that wait for their answers, and `delay_ms` is the count of the
delay requested; a position is held, and no command or request is accepted, until its answer comes. Answers: `hook_ack` goes on to
the first delay and `hook_nak` ends INIT with `life_status` 2, with `hook_ack` raised or not (log 21, PRESUMED); `delay_ack` and
`delay_nak` alike present the reset frame, then the device-select frame on the TX port, and after the last delay make the handler
Ready with `life_status` 0; `tx_ack` commits a SEND of INIT and `tx_nak` ends INIT with `life_status` 2; either answer of the
teardown hook completes DEINIT with `life_status` 0. Every field of each next state is stated (`cmd_done` does not pulse: log 27,
DEDUCED). -/
def Obligations.PortCapabilityHandshake : Prop :=
  ∀ s : State, MachineInv s →
    ((portOut s).hookInitReq = true ↔ s.seq = .initHook) ∧
    ((portOut s).hookDeinitReq = true ↔ s.seq = .deinitHook) ∧
    ((portOut s).delayReq = true ↔ s.seq = .initStabilize ∨ s.seq = .initAfterReset ∨ s.seq = .initAfterSelect) ∧
    (s.seq = .initStabilize → (portOut s).delayMs = some s.cfg.tStabilize) ∧
    (s.seq = .initAfterReset → (portOut s).delayMs = some s.cfg.tAfterReset) ∧
    (s.seq = .initAfterSelect → (portOut s).delayMs = some s.cfg.tAfterSelect) ∧
    ((portOut s).delayReq = false → (portOut s).delayMs = none) ∧
    (s.seq = .initReset ∨ s.seq = .initSelect → (portOut s).txValid = true) ∧
    (∀ p : PortIn, p.Unanswered → s.seq ≠ .idle → clockEdge p s = .ok s) ∧
    (s.seq = .initHook →
      clockEdge { hookAck := true } s =
        .ok { s with seq := .initStabilize, calls := s.calls ++ [.delay s.cfg.tStabilize] } ∧
      ∀ ack, clockEdge { hookAck := ack, hookNak := true } s = .ok (LifecycleEnded .transportError s)) ∧
    (∀ ack nak, Answered ack nak →
      (s.seq = .initStabilize →
        clockEdge { delayAck := ack, delayNak := nak } s = .ok (InitPresents .initReset s.cfg.opReset s.cfg.resetData s)) ∧
      (s.seq = .initAfterReset →
        clockEdge { delayAck := ack, delayNak := nak } s =
          .ok (InitPresents .initSelect s.cfg.opSelectDevice s.cfg.selectData s)) ∧
      (s.seq = .initAfterSelect →
        clockEdge { delayAck := ack, delayNak := nak } s = .ok (LifecycleEnded .ok { s with hstate := .ready })) ∧
      (s.seq = .deinitHook →
        clockEdge { hookAck := ack, hookNak := nak } s =
          .ok (LifecycleEnded .ok
            { s with
              volume := 0, track := 0, status := 0, media := false, lastCmdOp := 0, lastCmdData := 0, lastRspCode := 0,
              lastRspData := 0, lastRspValid := false, fstate := .idle, cursor := 0, hstate := .uninitialized }))) ∧
    (s.seq = .initReset →
      clockEdge { txAck := true } s =
        .ok (InitSent .initAfterReset s.cfg.opReset s.cfg.resetData s.cfg.tAfterReset s)) ∧
    (s.seq = .initSelect →
      clockEdge { txAck := true } s =
        .ok (InitSent .initAfterSelect s.cfg.opSelectDevice s.cfg.selectData s.cfg.tAfterSelect s)) ∧
    (s.seq = .initReset ∨ s.seq = .initSelect →
      ∀ ack, clockEdge { txAck := ack, txNak := true } s = .ok (LifecycleEnded .transportError { s with txBusy := false })) ∧
    (∀ r : Status, (portOut (LifecycleEnded r s)).lifeDone = true ∧ (portOut (LifecycleEnded r s)).cmdReady = !s.txBusy ∧
      (portOut (LifecycleEnded r s)).lifeStatus =
        some (match r with | .ok => 0 | .invalidParameter => 1 | .transportError => 2)) ∧
    (s.pulses.lifeDone = none → (portOut s).lifeDone = false ∧ (portOut s).lifeStatus = none)
end

