-- ==== Sys2Proof/Laws/State.lean ====
section
/-!
SUPPORT. One lemma per field per shared update of State, so that no later proof unfolds a record update.
-/

namespace Sys2Proof.Machine

/-! ### setMedia -/

@[simp] theorem setMedia_volume (s : State) : (s.setMedia).volume = s.volume := rfl
@[simp] theorem setMedia_track (s : State) : (s.setMedia).track = s.track := rfl
@[simp] theorem setMedia_status (s : State) : (s.setMedia).status = s.status := rfl
@[simp] theorem setMedia_media (s : State) : (s.setMedia).media = true := rfl
@[simp] theorem setMedia_lastCmdOp (s : State) : (s.setMedia).lastCmdOp = s.lastCmdOp := rfl
@[simp] theorem setMedia_lastCmdData (s : State) : (s.setMedia).lastCmdData = s.lastCmdData := rfl
@[simp] theorem setMedia_lastRspCode (s : State) : (s.setMedia).lastRspCode = s.lastRspCode := rfl
@[simp] theorem setMedia_lastRspData (s : State) : (s.setMedia).lastRspData = s.lastRspData := rfl
@[simp] theorem setMedia_lastRspValid (s : State) : (s.setMedia).lastRspValid = s.lastRspValid := rfl
@[simp] theorem setMedia_fstate (s : State) : (s.setMedia).fstate = s.fstate := rfl
@[simp] theorem setMedia_cursor (s : State) : (s.setMedia).cursor = s.cursor := rfl
@[simp] theorem setMedia_buf (s : State) : (s.setMedia).buf = s.buf := rfl
@[simp] theorem setMedia_hstate (s : State) : (s.setMedia).hstate = s.hstate := rfl
@[simp] theorem setMedia_txBusy (s : State) : (s.setMedia).txBusy = s.txBusy := rfl
@[simp] theorem setMedia_txCmd (s : State) : (s.setMedia).txCmd = s.txCmd := rfl
@[simp] theorem setMedia_seq (s : State) : (s.setMedia).seq = s.seq := rfl
@[simp] theorem setMedia_pulses (s : State) : (s.setMedia).pulses = s.pulses := rfl
@[simp] theorem setMedia_cfg (s : State) : (s.setMedia).cfg = s.cfg := rfl
@[simp] theorem setMedia_agenda (s : State) : (s.setMedia).agenda = s.agenda := rfl
@[simp] theorem setMedia_replies (s : State) : (s.setMedia).replies = s.replies := rfl
@[simp] theorem setMedia_txLog (s : State) : (s.setMedia).txLog = s.txLog := rfl
@[simp] theorem setMedia_feedLog (s : State) : (s.setMedia).feedLog = s.feedLog := rfl
@[simp] theorem setMedia_hostLog (s : State) : (s.setMedia).hostLog = s.hostLog := rfl
@[simp] theorem setMedia_calls (s : State) : (s.setMedia).calls = s.calls := rfl

/-! ### recordResponse -/

@[simp] theorem recordResponse_volume (code : Byte) (data : Half) (s : State) : (s.recordResponse code data).volume = s.volume := rfl
@[simp] theorem recordResponse_track (code : Byte) (data : Half) (s : State) : (s.recordResponse code data).track = s.track := rfl
@[simp] theorem recordResponse_status (code : Byte) (data : Half) (s : State) : (s.recordResponse code data).status = s.status := rfl
@[simp] theorem recordResponse_media (code : Byte) (data : Half) (s : State) : (s.recordResponse code data).media = s.media := rfl
@[simp] theorem recordResponse_lastCmdOp (code : Byte) (data : Half) (s : State) : (s.recordResponse code data).lastCmdOp = s.lastCmdOp := rfl
@[simp] theorem recordResponse_lastCmdData (code : Byte) (data : Half) (s : State) : (s.recordResponse code data).lastCmdData = s.lastCmdData := rfl
@[simp] theorem recordResponse_lastRspCode (code : Byte) (data : Half) (s : State) : (s.recordResponse code data).lastRspCode = code := rfl
@[simp] theorem recordResponse_lastRspData (code : Byte) (data : Half) (s : State) : (s.recordResponse code data).lastRspData = data := rfl
@[simp] theorem recordResponse_lastRspValid (code : Byte) (data : Half) (s : State) : (s.recordResponse code data).lastRspValid = true := rfl
@[simp] theorem recordResponse_fstate (code : Byte) (data : Half) (s : State) : (s.recordResponse code data).fstate = s.fstate := rfl
@[simp] theorem recordResponse_cursor (code : Byte) (data : Half) (s : State) : (s.recordResponse code data).cursor = s.cursor := rfl
@[simp] theorem recordResponse_buf (code : Byte) (data : Half) (s : State) : (s.recordResponse code data).buf = s.buf := rfl
@[simp] theorem recordResponse_hstate (code : Byte) (data : Half) (s : State) : (s.recordResponse code data).hstate = s.hstate := rfl
@[simp] theorem recordResponse_txBusy (code : Byte) (data : Half) (s : State) : (s.recordResponse code data).txBusy = s.txBusy := rfl
@[simp] theorem recordResponse_txCmd (code : Byte) (data : Half) (s : State) : (s.recordResponse code data).txCmd = s.txCmd := rfl
@[simp] theorem recordResponse_seq (code : Byte) (data : Half) (s : State) : (s.recordResponse code data).seq = s.seq := rfl
@[simp] theorem recordResponse_pulses (code : Byte) (data : Half) (s : State) : (s.recordResponse code data).pulses = s.pulses := rfl
@[simp] theorem recordResponse_cfg (code : Byte) (data : Half) (s : State) : (s.recordResponse code data).cfg = s.cfg := rfl
@[simp] theorem recordResponse_agenda (code : Byte) (data : Half) (s : State) : (s.recordResponse code data).agenda = s.agenda := rfl
@[simp] theorem recordResponse_replies (code : Byte) (data : Half) (s : State) : (s.recordResponse code data).replies = s.replies := rfl
@[simp] theorem recordResponse_txLog (code : Byte) (data : Half) (s : State) : (s.recordResponse code data).txLog = s.txLog := rfl
@[simp] theorem recordResponse_feedLog (code : Byte) (data : Half) (s : State) : (s.recordResponse code data).feedLog = s.feedLog := rfl
@[simp] theorem recordResponse_hostLog (code : Byte) (data : Half) (s : State) : (s.recordResponse code data).hostLog = s.hostLog := rfl
@[simp] theorem recordResponse_calls (code : Byte) (data : Half) (s : State) : (s.recordResponse code data).calls = s.calls := rfl

/-! ### clearResponse -/

@[simp] theorem clearResponse_volume (s : State) : (s.clearResponse).volume = s.volume := rfl
@[simp] theorem clearResponse_track (s : State) : (s.clearResponse).track = s.track := rfl
@[simp] theorem clearResponse_status (s : State) : (s.clearResponse).status = s.status := rfl
@[simp] theorem clearResponse_media (s : State) : (s.clearResponse).media = s.media := rfl
@[simp] theorem clearResponse_lastCmdOp (s : State) : (s.clearResponse).lastCmdOp = s.lastCmdOp := rfl
@[simp] theorem clearResponse_lastCmdData (s : State) : (s.clearResponse).lastCmdData = s.lastCmdData := rfl
@[simp] theorem clearResponse_lastRspCode (s : State) : (s.clearResponse).lastRspCode = 0 := rfl
@[simp] theorem clearResponse_lastRspData (s : State) : (s.clearResponse).lastRspData = 0 := rfl
@[simp] theorem clearResponse_lastRspValid (s : State) : (s.clearResponse).lastRspValid = false := rfl
@[simp] theorem clearResponse_fstate (s : State) : (s.clearResponse).fstate = s.fstate := rfl
@[simp] theorem clearResponse_cursor (s : State) : (s.clearResponse).cursor = s.cursor := rfl
@[simp] theorem clearResponse_buf (s : State) : (s.clearResponse).buf = s.buf := rfl
@[simp] theorem clearResponse_hstate (s : State) : (s.clearResponse).hstate = s.hstate := rfl
@[simp] theorem clearResponse_txBusy (s : State) : (s.clearResponse).txBusy = s.txBusy := rfl
@[simp] theorem clearResponse_txCmd (s : State) : (s.clearResponse).txCmd = s.txCmd := rfl
@[simp] theorem clearResponse_seq (s : State) : (s.clearResponse).seq = s.seq := rfl
@[simp] theorem clearResponse_pulses (s : State) : (s.clearResponse).pulses = s.pulses := rfl
@[simp] theorem clearResponse_cfg (s : State) : (s.clearResponse).cfg = s.cfg := rfl
@[simp] theorem clearResponse_agenda (s : State) : (s.clearResponse).agenda = s.agenda := rfl
@[simp] theorem clearResponse_replies (s : State) : (s.clearResponse).replies = s.replies := rfl
@[simp] theorem clearResponse_txLog (s : State) : (s.clearResponse).txLog = s.txLog := rfl
@[simp] theorem clearResponse_feedLog (s : State) : (s.clearResponse).feedLog = s.feedLog := rfl
@[simp] theorem clearResponse_hostLog (s : State) : (s.clearResponse).hostLog = s.hostLog := rfl
@[simp] theorem clearResponse_calls (s : State) : (s.clearResponse).calls = s.calls := rfl

/-! ### emitFeed -/

@[simp] theorem emitFeed_volume (r : FeedResult) (s : State) : (emitFeed r s).volume = s.volume := rfl
@[simp] theorem emitFeed_track (r : FeedResult) (s : State) : (emitFeed r s).track = s.track := rfl
@[simp] theorem emitFeed_status (r : FeedResult) (s : State) : (emitFeed r s).status = s.status := rfl
@[simp] theorem emitFeed_media (r : FeedResult) (s : State) : (emitFeed r s).media = s.media := rfl
@[simp] theorem emitFeed_lastCmdOp (r : FeedResult) (s : State) : (emitFeed r s).lastCmdOp = s.lastCmdOp := rfl
@[simp] theorem emitFeed_lastCmdData (r : FeedResult) (s : State) : (emitFeed r s).lastCmdData = s.lastCmdData := rfl
@[simp] theorem emitFeed_lastRspCode (r : FeedResult) (s : State) : (emitFeed r s).lastRspCode = s.lastRspCode := rfl
@[simp] theorem emitFeed_lastRspData (r : FeedResult) (s : State) : (emitFeed r s).lastRspData = s.lastRspData := rfl
@[simp] theorem emitFeed_lastRspValid (r : FeedResult) (s : State) : (emitFeed r s).lastRspValid = s.lastRspValid := rfl
@[simp] theorem emitFeed_fstate (r : FeedResult) (s : State) : (emitFeed r s).fstate = s.fstate := rfl
@[simp] theorem emitFeed_cursor (r : FeedResult) (s : State) : (emitFeed r s).cursor = s.cursor := rfl
@[simp] theorem emitFeed_buf (r : FeedResult) (s : State) : (emitFeed r s).buf = s.buf := rfl
@[simp] theorem emitFeed_hstate (r : FeedResult) (s : State) : (emitFeed r s).hstate = s.hstate := rfl
@[simp] theorem emitFeed_txBusy (r : FeedResult) (s : State) : (emitFeed r s).txBusy = s.txBusy := rfl
@[simp] theorem emitFeed_txCmd (r : FeedResult) (s : State) : (emitFeed r s).txCmd = s.txCmd := rfl
@[simp] theorem emitFeed_seq (r : FeedResult) (s : State) : (emitFeed r s).seq = s.seq := rfl
@[simp] theorem emitFeed_pulses (r : FeedResult) (s : State) : (emitFeed r s).pulses = { s.pulses with feedDone := some r } := rfl
@[simp] theorem emitFeed_cfg (r : FeedResult) (s : State) : (emitFeed r s).cfg = s.cfg := rfl
@[simp] theorem emitFeed_agenda (r : FeedResult) (s : State) : (emitFeed r s).agenda = s.agenda := rfl
@[simp] theorem emitFeed_replies (r : FeedResult) (s : State) : (emitFeed r s).replies = s.replies := rfl
@[simp] theorem emitFeed_txLog (r : FeedResult) (s : State) : (emitFeed r s).txLog = s.txLog := rfl
@[simp] theorem emitFeed_feedLog (r : FeedResult) (s : State) : (emitFeed r s).feedLog = s.feedLog ++ [r] := rfl
@[simp] theorem emitFeed_hostLog (r : FeedResult) (s : State) : (emitFeed r s).hostLog = s.hostLog := rfl
@[simp] theorem emitFeed_calls (r : FeedResult) (s : State) : (emitFeed r s).calls = s.calls := rfl

/-! ### emitCommand -/

@[simp] theorem emitCommand_volume (r : Status) (s : State) : (emitCommand r s).volume = s.volume := rfl
@[simp] theorem emitCommand_track (r : Status) (s : State) : (emitCommand r s).track = s.track := rfl
@[simp] theorem emitCommand_status (r : Status) (s : State) : (emitCommand r s).status = s.status := rfl
@[simp] theorem emitCommand_media (r : Status) (s : State) : (emitCommand r s).media = s.media := rfl
@[simp] theorem emitCommand_lastCmdOp (r : Status) (s : State) : (emitCommand r s).lastCmdOp = s.lastCmdOp := rfl
@[simp] theorem emitCommand_lastCmdData (r : Status) (s : State) : (emitCommand r s).lastCmdData = s.lastCmdData := rfl
@[simp] theorem emitCommand_lastRspCode (r : Status) (s : State) : (emitCommand r s).lastRspCode = s.lastRspCode := rfl
@[simp] theorem emitCommand_lastRspData (r : Status) (s : State) : (emitCommand r s).lastRspData = s.lastRspData := rfl
@[simp] theorem emitCommand_lastRspValid (r : Status) (s : State) : (emitCommand r s).lastRspValid = s.lastRspValid := rfl
@[simp] theorem emitCommand_fstate (r : Status) (s : State) : (emitCommand r s).fstate = s.fstate := rfl
@[simp] theorem emitCommand_cursor (r : Status) (s : State) : (emitCommand r s).cursor = s.cursor := rfl
@[simp] theorem emitCommand_buf (r : Status) (s : State) : (emitCommand r s).buf = s.buf := rfl
@[simp] theorem emitCommand_hstate (r : Status) (s : State) : (emitCommand r s).hstate = s.hstate := rfl
@[simp] theorem emitCommand_txBusy (r : Status) (s : State) : (emitCommand r s).txBusy = s.txBusy := rfl
@[simp] theorem emitCommand_txCmd (r : Status) (s : State) : (emitCommand r s).txCmd = s.txCmd := rfl
@[simp] theorem emitCommand_seq (r : Status) (s : State) : (emitCommand r s).seq = s.seq := rfl
@[simp] theorem emitCommand_pulses (r : Status) (s : State) : (emitCommand r s).pulses = { s.pulses with cmdDone := some r } := rfl
@[simp] theorem emitCommand_cfg (r : Status) (s : State) : (emitCommand r s).cfg = s.cfg := rfl
@[simp] theorem emitCommand_agenda (r : Status) (s : State) : (emitCommand r s).agenda = s.agenda := rfl
@[simp] theorem emitCommand_replies (r : Status) (s : State) : (emitCommand r s).replies = s.replies := rfl
@[simp] theorem emitCommand_txLog (r : Status) (s : State) : (emitCommand r s).txLog = s.txLog := rfl
@[simp] theorem emitCommand_feedLog (r : Status) (s : State) : (emitCommand r s).feedLog = s.feedLog := rfl
@[simp] theorem emitCommand_hostLog (r : Status) (s : State) : (emitCommand r s).hostLog = s.hostLog ++ [.status r] := rfl
@[simp] theorem emitCommand_calls (r : Status) (s : State) : (emitCommand r s).calls = s.calls := rfl

/-! ### emitLifecycle -/

@[simp] theorem emitLifecycle_volume (r : Status) (s : State) : (emitLifecycle r s).volume = s.volume := rfl
@[simp] theorem emitLifecycle_track (r : Status) (s : State) : (emitLifecycle r s).track = s.track := rfl
@[simp] theorem emitLifecycle_status (r : Status) (s : State) : (emitLifecycle r s).status = s.status := rfl
@[simp] theorem emitLifecycle_media (r : Status) (s : State) : (emitLifecycle r s).media = s.media := rfl
@[simp] theorem emitLifecycle_lastCmdOp (r : Status) (s : State) : (emitLifecycle r s).lastCmdOp = s.lastCmdOp := rfl
@[simp] theorem emitLifecycle_lastCmdData (r : Status) (s : State) : (emitLifecycle r s).lastCmdData = s.lastCmdData := rfl
@[simp] theorem emitLifecycle_lastRspCode (r : Status) (s : State) : (emitLifecycle r s).lastRspCode = s.lastRspCode := rfl
@[simp] theorem emitLifecycle_lastRspData (r : Status) (s : State) : (emitLifecycle r s).lastRspData = s.lastRspData := rfl
@[simp] theorem emitLifecycle_lastRspValid (r : Status) (s : State) : (emitLifecycle r s).lastRspValid = s.lastRspValid := rfl
@[simp] theorem emitLifecycle_fstate (r : Status) (s : State) : (emitLifecycle r s).fstate = s.fstate := rfl
@[simp] theorem emitLifecycle_cursor (r : Status) (s : State) : (emitLifecycle r s).cursor = s.cursor := rfl
@[simp] theorem emitLifecycle_buf (r : Status) (s : State) : (emitLifecycle r s).buf = s.buf := rfl
@[simp] theorem emitLifecycle_hstate (r : Status) (s : State) : (emitLifecycle r s).hstate = s.hstate := rfl
@[simp] theorem emitLifecycle_txBusy (r : Status) (s : State) : (emitLifecycle r s).txBusy = s.txBusy := rfl
@[simp] theorem emitLifecycle_txCmd (r : Status) (s : State) : (emitLifecycle r s).txCmd = s.txCmd := rfl
@[simp] theorem emitLifecycle_seq (r : Status) (s : State) : (emitLifecycle r s).seq = .idle := rfl
@[simp] theorem emitLifecycle_pulses (r : Status) (s : State) : (emitLifecycle r s).pulses = { s.pulses with lifeDone := some r } := rfl
@[simp] theorem emitLifecycle_cfg (r : Status) (s : State) : (emitLifecycle r s).cfg = s.cfg := rfl
@[simp] theorem emitLifecycle_agenda (r : Status) (s : State) : (emitLifecycle r s).agenda = s.agenda := rfl
@[simp] theorem emitLifecycle_replies (r : Status) (s : State) : (emitLifecycle r s).replies = s.replies := rfl
@[simp] theorem emitLifecycle_txLog (r : Status) (s : State) : (emitLifecycle r s).txLog = s.txLog := rfl
@[simp] theorem emitLifecycle_feedLog (r : Status) (s : State) : (emitLifecycle r s).feedLog = s.feedLog := rfl
@[simp] theorem emitLifecycle_hostLog (r : Status) (s : State) : (emitLifecycle r s).hostLog = s.hostLog ++ [.status r] := rfl
@[simp] theorem emitLifecycle_calls (r : Status) (s : State) : (emitLifecycle r s).calls = s.calls := rfl

/-! ### emitFrame -/

@[simp] theorem emitFrame_volume (f : Frame) (s : State) : (emitFrame f s).volume = s.volume := rfl
@[simp] theorem emitFrame_track (f : Frame) (s : State) : (emitFrame f s).track = s.track := rfl
@[simp] theorem emitFrame_status (f : Frame) (s : State) : (emitFrame f s).status = s.status := rfl
@[simp] theorem emitFrame_media (f : Frame) (s : State) : (emitFrame f s).media = s.media := rfl
@[simp] theorem emitFrame_lastCmdOp (f : Frame) (s : State) : (emitFrame f s).lastCmdOp = s.lastCmdOp := rfl
@[simp] theorem emitFrame_lastCmdData (f : Frame) (s : State) : (emitFrame f s).lastCmdData = s.lastCmdData := rfl
@[simp] theorem emitFrame_lastRspCode (f : Frame) (s : State) : (emitFrame f s).lastRspCode = s.lastRspCode := rfl
@[simp] theorem emitFrame_lastRspData (f : Frame) (s : State) : (emitFrame f s).lastRspData = s.lastRspData := rfl
@[simp] theorem emitFrame_lastRspValid (f : Frame) (s : State) : (emitFrame f s).lastRspValid = s.lastRspValid := rfl
@[simp] theorem emitFrame_fstate (f : Frame) (s : State) : (emitFrame f s).fstate = s.fstate := rfl
@[simp] theorem emitFrame_cursor (f : Frame) (s : State) : (emitFrame f s).cursor = s.cursor := rfl
@[simp] theorem emitFrame_buf (f : Frame) (s : State) : (emitFrame f s).buf = s.buf := rfl
@[simp] theorem emitFrame_hstate (f : Frame) (s : State) : (emitFrame f s).hstate = s.hstate := rfl
@[simp] theorem emitFrame_txBusy (f : Frame) (s : State) : (emitFrame f s).txBusy = s.txBusy := rfl
@[simp] theorem emitFrame_txCmd (f : Frame) (s : State) : (emitFrame f s).txCmd = s.txCmd := rfl
@[simp] theorem emitFrame_seq (f : Frame) (s : State) : (emitFrame f s).seq = s.seq := rfl
@[simp] theorem emitFrame_pulses (f : Frame) (s : State) : (emitFrame f s).pulses = s.pulses := rfl
@[simp] theorem emitFrame_cfg (f : Frame) (s : State) : (emitFrame f s).cfg = s.cfg := rfl
@[simp] theorem emitFrame_agenda (f : Frame) (s : State) : (emitFrame f s).agenda = s.agenda := rfl
@[simp] theorem emitFrame_replies (f : Frame) (s : State) : (emitFrame f s).replies = s.replies := rfl
@[simp] theorem emitFrame_txLog (f : Frame) (s : State) : (emitFrame f s).txLog = s.txLog := rfl
@[simp] theorem emitFrame_feedLog (f : Frame) (s : State) : (emitFrame f s).feedLog = s.feedLog := rfl
@[simp] theorem emitFrame_hostLog (f : Frame) (s : State) : (emitFrame f s).hostLog = s.hostLog ++ [.frame f] := rfl
@[simp] theorem emitFrame_calls (f : Frame) (s : State) : (emitFrame f s).calls = s.calls := rfl

/-! ### logCall -/

@[simp] theorem logCall_volume (k : Call) (s : State) : (logCall k s).volume = s.volume := rfl
@[simp] theorem logCall_track (k : Call) (s : State) : (logCall k s).track = s.track := rfl
@[simp] theorem logCall_status (k : Call) (s : State) : (logCall k s).status = s.status := rfl
@[simp] theorem logCall_media (k : Call) (s : State) : (logCall k s).media = s.media := rfl
@[simp] theorem logCall_lastCmdOp (k : Call) (s : State) : (logCall k s).lastCmdOp = s.lastCmdOp := rfl
@[simp] theorem logCall_lastCmdData (k : Call) (s : State) : (logCall k s).lastCmdData = s.lastCmdData := rfl
@[simp] theorem logCall_lastRspCode (k : Call) (s : State) : (logCall k s).lastRspCode = s.lastRspCode := rfl
@[simp] theorem logCall_lastRspData (k : Call) (s : State) : (logCall k s).lastRspData = s.lastRspData := rfl
@[simp] theorem logCall_lastRspValid (k : Call) (s : State) : (logCall k s).lastRspValid = s.lastRspValid := rfl
@[simp] theorem logCall_fstate (k : Call) (s : State) : (logCall k s).fstate = s.fstate := rfl
@[simp] theorem logCall_cursor (k : Call) (s : State) : (logCall k s).cursor = s.cursor := rfl
@[simp] theorem logCall_buf (k : Call) (s : State) : (logCall k s).buf = s.buf := rfl
@[simp] theorem logCall_hstate (k : Call) (s : State) : (logCall k s).hstate = s.hstate := rfl
@[simp] theorem logCall_txBusy (k : Call) (s : State) : (logCall k s).txBusy = s.txBusy := rfl
@[simp] theorem logCall_txCmd (k : Call) (s : State) : (logCall k s).txCmd = s.txCmd := rfl
@[simp] theorem logCall_seq (k : Call) (s : State) : (logCall k s).seq = s.seq := rfl
@[simp] theorem logCall_pulses (k : Call) (s : State) : (logCall k s).pulses = s.pulses := rfl
@[simp] theorem logCall_cfg (k : Call) (s : State) : (logCall k s).cfg = s.cfg := rfl
@[simp] theorem logCall_agenda (k : Call) (s : State) : (logCall k s).agenda = s.agenda := rfl
@[simp] theorem logCall_replies (k : Call) (s : State) : (logCall k s).replies = s.replies := rfl
@[simp] theorem logCall_txLog (k : Call) (s : State) : (logCall k s).txLog = s.txLog := rfl
@[simp] theorem logCall_feedLog (k : Call) (s : State) : (logCall k s).feedLog = s.feedLog := rfl
@[simp] theorem logCall_hostLog (k : Call) (s : State) : (logCall k s).hostLog = s.hostLog := rfl
@[simp] theorem logCall_calls (k : Call) (s : State) : (logCall k s).calls = s.calls ++ [k] := rfl

/-! ### resetHandler -/

@[simp] theorem resetHandler_volume (s : State) : (resetHandler s).volume = 0 := rfl
@[simp] theorem resetHandler_track (s : State) : (resetHandler s).track = 0 := rfl
@[simp] theorem resetHandler_status (s : State) : (resetHandler s).status = 0 := rfl
@[simp] theorem resetHandler_media (s : State) : (resetHandler s).media = false := rfl
@[simp] theorem resetHandler_lastCmdOp (s : State) : (resetHandler s).lastCmdOp = 0 := rfl
@[simp] theorem resetHandler_lastCmdData (s : State) : (resetHandler s).lastCmdData = 0 := rfl
@[simp] theorem resetHandler_lastRspCode (s : State) : (resetHandler s).lastRspCode = 0 := rfl
@[simp] theorem resetHandler_lastRspData (s : State) : (resetHandler s).lastRspData = 0 := rfl
@[simp] theorem resetHandler_lastRspValid (s : State) : (resetHandler s).lastRspValid = false := rfl
@[simp] theorem resetHandler_fstate (s : State) : (resetHandler s).fstate = .idle := rfl
@[simp] theorem resetHandler_cursor (s : State) : (resetHandler s).cursor = 0 := rfl
@[simp] theorem resetHandler_buf (s : State) : (resetHandler s).buf = s.buf := rfl
@[simp] theorem resetHandler_hstate (s : State) : (resetHandler s).hstate = s.hstate := rfl
@[simp] theorem resetHandler_txBusy (s : State) : (resetHandler s).txBusy = s.txBusy := rfl
@[simp] theorem resetHandler_txCmd (s : State) : (resetHandler s).txCmd = s.txCmd := rfl
@[simp] theorem resetHandler_seq (s : State) : (resetHandler s).seq = s.seq := rfl
@[simp] theorem resetHandler_pulses (s : State) : (resetHandler s).pulses = s.pulses := rfl
@[simp] theorem resetHandler_cfg (s : State) : (resetHandler s).cfg = s.cfg := rfl
@[simp] theorem resetHandler_agenda (s : State) : (resetHandler s).agenda = s.agenda := rfl
@[simp] theorem resetHandler_replies (s : State) : (resetHandler s).replies = s.replies := rfl
@[simp] theorem resetHandler_txLog (s : State) : (resetHandler s).txLog = s.txLog := rfl
@[simp] theorem resetHandler_feedLog (s : State) : (resetHandler s).feedLog = s.feedLog := rfl
@[simp] theorem resetHandler_hostLog (s : State) : (resetHandler s).hostLog = s.hostLog := rfl
@[simp] theorem resetHandler_calls (s : State) : (resetHandler s).calls = s.calls := rfl

/-! ### hardwareReset -/

@[simp] theorem hardwareReset_volume (s : State) : (hardwareReset s).volume = 0 := rfl
@[simp] theorem hardwareReset_track (s : State) : (hardwareReset s).track = 0 := rfl
@[simp] theorem hardwareReset_status (s : State) : (hardwareReset s).status = 0 := rfl
@[simp] theorem hardwareReset_media (s : State) : (hardwareReset s).media = false := rfl
@[simp] theorem hardwareReset_lastCmdOp (s : State) : (hardwareReset s).lastCmdOp = 0 := rfl
@[simp] theorem hardwareReset_lastCmdData (s : State) : (hardwareReset s).lastCmdData = 0 := rfl
@[simp] theorem hardwareReset_lastRspCode (s : State) : (hardwareReset s).lastRspCode = 0 := rfl
@[simp] theorem hardwareReset_lastRspData (s : State) : (hardwareReset s).lastRspData = 0 := rfl
@[simp] theorem hardwareReset_lastRspValid (s : State) : (hardwareReset s).lastRspValid = false := rfl
@[simp] theorem hardwareReset_fstate (s : State) : (hardwareReset s).fstate = .idle := rfl
@[simp] theorem hardwareReset_cursor (s : State) : (hardwareReset s).cursor = 0 := rfl
@[simp] theorem hardwareReset_buf (s : State) : (hardwareReset s).buf = [] := rfl
@[simp] theorem hardwareReset_hstate (s : State) : (hardwareReset s).hstate = .uninitialized := rfl
@[simp] theorem hardwareReset_txBusy (s : State) : (hardwareReset s).txBusy = false := rfl
@[simp] theorem hardwareReset_txCmd (s : State) : (hardwareReset s).txCmd = ⟨0, 0, 0⟩ := rfl
@[simp] theorem hardwareReset_seq (s : State) : (hardwareReset s).seq = .idle := rfl
@[simp] theorem hardwareReset_pulses (s : State) : (hardwareReset s).pulses = Pulses.none := rfl
@[simp] theorem hardwareReset_cfg (s : State) : (hardwareReset s).cfg = s.cfg := rfl
@[simp] theorem hardwareReset_agenda (s : State) : (hardwareReset s).agenda = s.agenda := rfl
@[simp] theorem hardwareReset_replies (s : State) : (hardwareReset s).replies = s.replies := rfl
@[simp] theorem hardwareReset_txLog (s : State) : (hardwareReset s).txLog = s.txLog := rfl
@[simp] theorem hardwareReset_feedLog (s : State) : (hardwareReset s).feedLog = s.feedLog := rfl
@[simp] theorem hardwareReset_hostLog (s : State) : (hardwareReset s).hostLog = s.hostLog := rfl
@[simp] theorem hardwareReset_calls (s : State) : (hardwareReset s).calls = s.calls := rfl

/-! ### presentFrame -/

@[simp] theorem presentFrame_volume (op hi lo : Byte) (s : State) : (presentFrame op hi lo s).volume = s.volume := rfl
@[simp] theorem presentFrame_track (op hi lo : Byte) (s : State) : (presentFrame op hi lo s).track = s.track := rfl
@[simp] theorem presentFrame_status (op hi lo : Byte) (s : State) : (presentFrame op hi lo s).status = s.status := rfl
@[simp] theorem presentFrame_media (op hi lo : Byte) (s : State) : (presentFrame op hi lo s).media = s.media := rfl
@[simp] theorem presentFrame_lastCmdOp (op hi lo : Byte) (s : State) : (presentFrame op hi lo s).lastCmdOp = s.lastCmdOp := rfl
@[simp] theorem presentFrame_lastCmdData (op hi lo : Byte) (s : State) : (presentFrame op hi lo s).lastCmdData = s.lastCmdData := rfl
@[simp] theorem presentFrame_lastRspCode (op hi lo : Byte) (s : State) : (presentFrame op hi lo s).lastRspCode = s.lastRspCode := rfl
@[simp] theorem presentFrame_lastRspData (op hi lo : Byte) (s : State) : (presentFrame op hi lo s).lastRspData = s.lastRspData := rfl
@[simp] theorem presentFrame_lastRspValid (op hi lo : Byte) (s : State) : (presentFrame op hi lo s).lastRspValid = s.lastRspValid := rfl
@[simp] theorem presentFrame_fstate (op hi lo : Byte) (s : State) : (presentFrame op hi lo s).fstate = s.fstate := rfl
@[simp] theorem presentFrame_cursor (op hi lo : Byte) (s : State) : (presentFrame op hi lo s).cursor = s.cursor := rfl
@[simp] theorem presentFrame_buf (op hi lo : Byte) (s : State) : (presentFrame op hi lo s).buf = s.buf := rfl
@[simp] theorem presentFrame_hstate (op hi lo : Byte) (s : State) : (presentFrame op hi lo s).hstate = s.hstate := rfl
@[simp] theorem presentFrame_txBusy (op hi lo : Byte) (s : State) : (presentFrame op hi lo s).txBusy = true := rfl
@[simp] theorem presentFrame_txCmd (op hi lo : Byte) (s : State) : (presentFrame op hi lo s).txCmd = ⟨op, hi, lo⟩ := rfl
@[simp] theorem presentFrame_seq (op hi lo : Byte) (s : State) : (presentFrame op hi lo s).seq = s.seq := rfl
@[simp] theorem presentFrame_pulses (op hi lo : Byte) (s : State) : (presentFrame op hi lo s).pulses = s.pulses := rfl
@[simp] theorem presentFrame_cfg (op hi lo : Byte) (s : State) : (presentFrame op hi lo s).cfg = s.cfg := rfl
@[simp] theorem presentFrame_agenda (op hi lo : Byte) (s : State) : (presentFrame op hi lo s).agenda = s.agenda := rfl
@[simp] theorem presentFrame_replies (op hi lo : Byte) (s : State) : (presentFrame op hi lo s).replies = s.replies := rfl
@[simp] theorem presentFrame_txLog (op hi lo : Byte) (s : State) : (presentFrame op hi lo s).txLog = s.txLog := rfl
@[simp] theorem presentFrame_feedLog (op hi lo : Byte) (s : State) : (presentFrame op hi lo s).feedLog = s.feedLog := rfl
@[simp] theorem presentFrame_hostLog (op hi lo : Byte) (s : State) : (presentFrame op hi lo s).hostLog = s.hostLog := rfl
@[simp] theorem presentFrame_calls (op hi lo : Byte) (s : State) : (presentFrame op hi lo s).calls = s.calls ++ [.handoff (encodeFrame op hi lo)] := rfl

/-! ### commitSend -/

@[simp] theorem commitSend_volume (s : State) : (commitSend s).volume = s.volume := rfl
@[simp] theorem commitSend_track (s : State) : (commitSend s).track = s.track := rfl
@[simp] theorem commitSend_status (s : State) : (commitSend s).status = s.status := rfl
@[simp] theorem commitSend_media (s : State) : (commitSend s).media = s.media := rfl
@[simp] theorem commitSend_lastCmdOp (s : State) : (commitSend s).lastCmdOp = s.txCmd.op := rfl
@[simp] theorem commitSend_lastCmdData (s : State) : (commitSend s).lastCmdData = joinBytes s.txCmd.hi s.txCmd.lo := rfl
@[simp] theorem commitSend_lastRspCode (s : State) : (commitSend s).lastRspCode = 0 := rfl
@[simp] theorem commitSend_lastRspData (s : State) : (commitSend s).lastRspData = 0 := rfl
@[simp] theorem commitSend_lastRspValid (s : State) : (commitSend s).lastRspValid = false := rfl
@[simp] theorem commitSend_fstate (s : State) : (commitSend s).fstate = s.fstate := rfl
@[simp] theorem commitSend_cursor (s : State) : (commitSend s).cursor = s.cursor := rfl
@[simp] theorem commitSend_buf (s : State) : (commitSend s).buf = s.buf := rfl
@[simp] theorem commitSend_hstate (s : State) : (commitSend s).hstate = s.hstate := rfl
@[simp] theorem commitSend_txBusy (s : State) : (commitSend s).txBusy = false := rfl
@[simp] theorem commitSend_txCmd (s : State) : (commitSend s).txCmd = s.txCmd := rfl
@[simp] theorem commitSend_seq (s : State) : (commitSend s).seq = s.seq := rfl
@[simp] theorem commitSend_pulses (s : State) : (commitSend s).pulses = s.pulses := rfl
@[simp] theorem commitSend_cfg (s : State) : (commitSend s).cfg = s.cfg := rfl
@[simp] theorem commitSend_agenda (s : State) : (commitSend s).agenda = s.agenda := rfl
@[simp] theorem commitSend_replies (s : State) : (commitSend s).replies = s.replies := rfl
@[simp] theorem commitSend_txLog (s : State) : (commitSend s).txLog = s.txLog ++ [encodeFrame s.txCmd.op s.txCmd.hi s.txCmd.lo] := rfl
@[simp] theorem commitSend_feedLog (s : State) : (commitSend s).feedLog = s.feedLog := rfl
@[simp] theorem commitSend_hostLog (s : State) : (commitSend s).hostLog = s.hostLog := rfl
@[simp] theorem commitSend_calls (s : State) : (commitSend s).calls = s.calls := rfl

/-! ### beginDelay -/

@[simp] theorem beginDelay_volume (position : Seq) (ms : Half) (s : State) : (beginDelay position ms s).volume = s.volume := rfl
@[simp] theorem beginDelay_track (position : Seq) (ms : Half) (s : State) : (beginDelay position ms s).track = s.track := rfl
@[simp] theorem beginDelay_status (position : Seq) (ms : Half) (s : State) : (beginDelay position ms s).status = s.status := rfl
@[simp] theorem beginDelay_media (position : Seq) (ms : Half) (s : State) : (beginDelay position ms s).media = s.media := rfl
@[simp] theorem beginDelay_lastCmdOp (position : Seq) (ms : Half) (s : State) : (beginDelay position ms s).lastCmdOp = s.lastCmdOp := rfl
@[simp] theorem beginDelay_lastCmdData (position : Seq) (ms : Half) (s : State) : (beginDelay position ms s).lastCmdData = s.lastCmdData := rfl
@[simp] theorem beginDelay_lastRspCode (position : Seq) (ms : Half) (s : State) : (beginDelay position ms s).lastRspCode = s.lastRspCode := rfl
@[simp] theorem beginDelay_lastRspData (position : Seq) (ms : Half) (s : State) : (beginDelay position ms s).lastRspData = s.lastRspData := rfl
@[simp] theorem beginDelay_lastRspValid (position : Seq) (ms : Half) (s : State) : (beginDelay position ms s).lastRspValid = s.lastRspValid := rfl
@[simp] theorem beginDelay_fstate (position : Seq) (ms : Half) (s : State) : (beginDelay position ms s).fstate = s.fstate := rfl
@[simp] theorem beginDelay_cursor (position : Seq) (ms : Half) (s : State) : (beginDelay position ms s).cursor = s.cursor := rfl
@[simp] theorem beginDelay_buf (position : Seq) (ms : Half) (s : State) : (beginDelay position ms s).buf = s.buf := rfl
@[simp] theorem beginDelay_hstate (position : Seq) (ms : Half) (s : State) : (beginDelay position ms s).hstate = s.hstate := rfl
@[simp] theorem beginDelay_txBusy (position : Seq) (ms : Half) (s : State) : (beginDelay position ms s).txBusy = s.txBusy := rfl
@[simp] theorem beginDelay_txCmd (position : Seq) (ms : Half) (s : State) : (beginDelay position ms s).txCmd = s.txCmd := rfl
@[simp] theorem beginDelay_seq (position : Seq) (ms : Half) (s : State) : (beginDelay position ms s).seq = position := rfl
@[simp] theorem beginDelay_pulses (position : Seq) (ms : Half) (s : State) : (beginDelay position ms s).pulses = s.pulses := rfl
@[simp] theorem beginDelay_cfg (position : Seq) (ms : Half) (s : State) : (beginDelay position ms s).cfg = s.cfg := rfl
@[simp] theorem beginDelay_agenda (position : Seq) (ms : Half) (s : State) : (beginDelay position ms s).agenda = s.agenda := rfl
@[simp] theorem beginDelay_replies (position : Seq) (ms : Half) (s : State) : (beginDelay position ms s).replies = s.replies := rfl
@[simp] theorem beginDelay_txLog (position : Seq) (ms : Half) (s : State) : (beginDelay position ms s).txLog = s.txLog := rfl
@[simp] theorem beginDelay_feedLog (position : Seq) (ms : Half) (s : State) : (beginDelay position ms s).feedLog = s.feedLog := rfl
@[simp] theorem beginDelay_hostLog (position : Seq) (ms : Half) (s : State) : (beginDelay position ms s).hostLog = s.hostLog := rfl
@[simp] theorem beginDelay_calls (position : Seq) (ms : Half) (s : State) : (beginDelay position ms s).calls = s.calls ++ [.delay ms] := rfl

/-! ### takeEvent -/

@[simp] theorem takeEvent_volume (rest : List Event) (s : State) : (takeEvent rest s).volume = s.volume := rfl
@[simp] theorem takeEvent_track (rest : List Event) (s : State) : (takeEvent rest s).track = s.track := rfl
@[simp] theorem takeEvent_status (rest : List Event) (s : State) : (takeEvent rest s).status = s.status := rfl
@[simp] theorem takeEvent_media (rest : List Event) (s : State) : (takeEvent rest s).media = s.media := rfl
@[simp] theorem takeEvent_lastCmdOp (rest : List Event) (s : State) : (takeEvent rest s).lastCmdOp = s.lastCmdOp := rfl
@[simp] theorem takeEvent_lastCmdData (rest : List Event) (s : State) : (takeEvent rest s).lastCmdData = s.lastCmdData := rfl
@[simp] theorem takeEvent_lastRspCode (rest : List Event) (s : State) : (takeEvent rest s).lastRspCode = s.lastRspCode := rfl
@[simp] theorem takeEvent_lastRspData (rest : List Event) (s : State) : (takeEvent rest s).lastRspData = s.lastRspData := rfl
@[simp] theorem takeEvent_lastRspValid (rest : List Event) (s : State) : (takeEvent rest s).lastRspValid = s.lastRspValid := rfl
@[simp] theorem takeEvent_fstate (rest : List Event) (s : State) : (takeEvent rest s).fstate = s.fstate := rfl
@[simp] theorem takeEvent_cursor (rest : List Event) (s : State) : (takeEvent rest s).cursor = s.cursor := rfl
@[simp] theorem takeEvent_buf (rest : List Event) (s : State) : (takeEvent rest s).buf = s.buf := rfl
@[simp] theorem takeEvent_hstate (rest : List Event) (s : State) : (takeEvent rest s).hstate = s.hstate := rfl
@[simp] theorem takeEvent_txBusy (rest : List Event) (s : State) : (takeEvent rest s).txBusy = s.txBusy := rfl
@[simp] theorem takeEvent_txCmd (rest : List Event) (s : State) : (takeEvent rest s).txCmd = s.txCmd := rfl
@[simp] theorem takeEvent_seq (rest : List Event) (s : State) : (takeEvent rest s).seq = s.seq := rfl
@[simp] theorem takeEvent_pulses (rest : List Event) (s : State) : (takeEvent rest s).pulses = Pulses.none := rfl
@[simp] theorem takeEvent_cfg (rest : List Event) (s : State) : (takeEvent rest s).cfg = s.cfg := rfl
@[simp] theorem takeEvent_agenda (rest : List Event) (s : State) : (takeEvent rest s).agenda = rest := rfl
@[simp] theorem takeEvent_replies (rest : List Event) (s : State) : (takeEvent rest s).replies = s.replies := rfl
@[simp] theorem takeEvent_txLog (rest : List Event) (s : State) : (takeEvent rest s).txLog = s.txLog := rfl
@[simp] theorem takeEvent_feedLog (rest : List Event) (s : State) : (takeEvent rest s).feedLog = s.feedLog := rfl
@[simp] theorem takeEvent_hostLog (rest : List Event) (s : State) : (takeEvent rest s).hostLog = s.hostLog := rfl
@[simp] theorem takeEvent_calls (rest : List Event) (s : State) : (takeEvent rest s).calls = s.calls := rfl

/-! ### endRejection -/

@[simp] theorem endRejection_volume (s : State) : (endRejection s).volume = s.volume := rfl
@[simp] theorem endRejection_track (s : State) : (endRejection s).track = s.track := rfl
@[simp] theorem endRejection_status (s : State) : (endRejection s).status = s.status := rfl
@[simp] theorem endRejection_media (s : State) : (endRejection s).media = s.media := rfl
@[simp] theorem endRejection_lastCmdOp (s : State) : (endRejection s).lastCmdOp = s.lastCmdOp := rfl
@[simp] theorem endRejection_lastCmdData (s : State) : (endRejection s).lastCmdData = s.lastCmdData := rfl
@[simp] theorem endRejection_lastRspCode (s : State) : (endRejection s).lastRspCode = s.lastRspCode := rfl
@[simp] theorem endRejection_lastRspData (s : State) : (endRejection s).lastRspData = s.lastRspData := rfl
@[simp] theorem endRejection_lastRspValid (s : State) : (endRejection s).lastRspValid = s.lastRspValid := rfl
@[simp] theorem endRejection_fstate (s : State) : (endRejection s).fstate = s.fstate := rfl
@[simp] theorem endRejection_cursor (s : State) : (endRejection s).cursor = s.cursor := rfl
@[simp] theorem endRejection_buf (s : State) : (endRejection s).buf = s.buf := rfl
@[simp] theorem endRejection_hstate (s : State) : (endRejection s).hstate = s.hstate := rfl
@[simp] theorem endRejection_txBusy (s : State) : (endRejection s).txBusy = (s.txBusy && s.cfg.hasSend) := rfl
@[simp] theorem endRejection_txCmd (s : State) : (endRejection s).txCmd = s.txCmd := rfl
@[simp] theorem endRejection_seq (s : State) : (endRejection s).seq = s.seq := rfl
@[simp] theorem endRejection_pulses (s : State) : (endRejection s).pulses = s.pulses := rfl
@[simp] theorem endRejection_cfg (s : State) : (endRejection s).cfg = s.cfg := rfl
@[simp] theorem endRejection_agenda (s : State) : (endRejection s).agenda = s.agenda := rfl
@[simp] theorem endRejection_replies (s : State) : (endRejection s).replies = s.replies := rfl
@[simp] theorem endRejection_txLog (s : State) : (endRejection s).txLog = s.txLog := rfl
@[simp] theorem endRejection_feedLog (s : State) : (endRejection s).feedLog = s.feedLog := rfl
@[simp] theorem endRejection_hostLog (s : State) : (endRejection s).hostLog = s.hostLog := rfl
@[simp] theorem endRejection_calls (s : State) : (endRejection s).calls = s.calls := rfl

end Sys2Proof.Machine
end

