-- ==== Sys2Proof/Laws/Memory.lean ====
section
/-!
SUPPORT. Laws of the receive buffer: a read after a write, the canonical form, and equality of buffers that read alike.
-/

namespace Sys2Proof.Machine

/-- Every index of a list of cells is above `a`. -/
abbrev Memory.Above (m : Memory) (a : Nat) : Prop := ∀ c ∈ m, a < c.1

theorem Memory.wf_cons {k : Nat} {v : Byte} {rest : Memory} :
    Memory.wf ((k, v) :: rest) = true ↔ v ≠ unwrittenCell ∧ Memory.Above rest k ∧ Memory.wf rest = true := by
  induction rest generalizing k v with
  | nil => simp [Memory.wf, Memory.Above]
  | cons c rest ih =>
    obtain ⟨k', v'⟩ := c
    have hwf : Memory.wf ((k, v) :: (k', v') :: rest) =
        (v != unwrittenCell && decide (k < k') && Memory.wf ((k', v') :: rest)) := rfl
    rw [hwf]
    simp only [Bool.and_eq_true, bne_iff_ne, decide_eq_true_eq, Memory.Above, List.forall_mem_cons]
    constructor
    · rintro ⟨⟨hv, hk⟩, hr⟩
      exact ⟨hv, ⟨hk, fun c hc => Nat.lt_trans hk ((ih.mp hr).2.1 c hc)⟩, hr⟩
    · rintro ⟨hv, ⟨hk, -⟩, hr⟩
      exact ⟨⟨hv, hk⟩, hr⟩

theorem Memory.read_above {m : Memory} {a k : Nat} (h : Memory.Above m k) (ha : a ≤ k) : m.read a = unwrittenCell := by
  induction m with
  | nil => rfl
  | cons c rest ih =>
    obtain ⟨k', v'⟩ := c
    have hk : k < k' := h (k', v') (by simp)
    simp only [Memory.read]
    rw [if_neg (by omega)]
    exact ih fun c hc => h c (by simp [hc])

theorem Memory.read_insert (m : Memory) (a x : Nat) (b : Byte) :
    (m.insert a b).read x = if x = a then b else m.read x := by
  induction m with
  | nil => grind [Memory.insert, Memory.read]
  | cons c rest ih => grind [Memory.insert, Memory.read]

theorem Memory.read_erase {m : Memory} (a x : Nat) (h : m.wf = true) :
    (m.erase a).read x = if x = a then unwrittenCell else m.read x := by
  induction m with
  | nil => simp [Memory.erase, Memory.read]
  | cons c rest ih =>
    obtain ⟨k, v⟩ := c
    obtain ⟨-, habove, hr⟩ := Memory.wf_cons.mp h
    simp only [Memory.erase]
    split
    · subst_vars
      split
      · subst_vars; exact Memory.read_above habove (Nat.le_refl _)
      · simp only [Memory.read]; rw [if_neg (by omega)]
    · simp only [Memory.read, ih hr]; split <;> split <;> first | rfl | omega

/-- A read after a write gives the value written, and every other cell reads as before. -/
theorem Memory.read_write {m : Memory} (a x : Nat) (b : Byte) (h : m.wf = true) :
    (m.write a b).read x = if x = a then b else m.read x := by
  simp only [Memory.write]
  split
  · rw [Memory.read_erase a x h]; split <;> simp_all
  · exact Memory.read_insert m a x b

theorem Memory.mem_insert {m : Memory} {a : Nat} {b : Byte} {c : Host.Cell} (h : c ∈ m.insert a b) : c = (a, b) ∨ c ∈ m := by
  induction m with
  | nil => simpa [Memory.insert] using h
  | cons d rest ih =>
    obtain ⟨k, v⟩ := d
    simp only [Memory.insert] at h
    split at h
    · simpa using h
    · split at h
      · simp only [List.mem_cons] at h ⊢; tauto
      · simp only [List.mem_cons] at h ⊢
        rcases h with h | h
        · exact .inr (.inl h)
        · rcases ih h with h | h <;> tauto

theorem Memory.mem_erase {m : Memory} {a : Nat} {c : Host.Cell} (h : c ∈ m.erase a) : c ∈ m := by
  induction m with
  | nil => simp [Memory.erase] at h
  | cons d rest ih =>
    obtain ⟨k, v⟩ := d
    simp only [Memory.erase] at h
    split at h
    · simp [h]
    · simp only [List.mem_cons] at h ⊢
      exact h.imp_right ih

theorem Memory.insert_wf {m : Memory} {a : Nat} {b : Byte} (hb : b ≠ unwrittenCell) (h : m.wf = true) :
    (m.insert a b).wf = true := by
  induction m with
  | nil => simpa [Memory.insert, Memory.wf] using hb
  | cons d rest ih =>
    obtain ⟨k, v⟩ := d
    obtain ⟨hv, habove, hr⟩ := Memory.wf_cons.mp h
    simp only [Memory.insert]
    split
    · rename_i hak
      refine Memory.wf_cons.mpr ⟨hb, ?_, h⟩
      intro c hc
      rcases List.mem_cons.mp hc with rfl | hc
      · exact hak
      · exact Nat.lt_trans hak (habove c hc)
    · split
      · subst_vars; exact Memory.wf_cons.mpr ⟨hb, habove, hr⟩
      · refine Memory.wf_cons.mpr ⟨hv, ?_, ih hr⟩
        intro c hc
        rcases Memory.mem_insert hc with rfl | hc
        · show k < a; omega
        · exact habove c hc

theorem Memory.erase_wf {m : Memory} {a : Nat} (h : m.wf = true) : (m.erase a).wf = true := by
  induction m with
  | nil => rfl
  | cons d rest ih =>
    obtain ⟨k, v⟩ := d
    obtain ⟨hv, habove, hr⟩ := Memory.wf_cons.mp h
    simp only [Memory.erase]
    split
    · exact hr
    · exact Memory.wf_cons.mpr ⟨hv, fun c hc => habove c (Memory.mem_erase hc), ih hr⟩

/-- A write keeps the canonical form. -/
theorem Memory.write_wf {m : Memory} {a : Nat} {b : Byte} (h : m.wf = true) : (m.write a b).wf = true := by
  simp only [Memory.write]
  split
  · exact Memory.erase_wf h
  · exact Memory.insert_wf ‹_› h

/-- A write inside the buffer keeps every listed cell inside it. -/
theorem Memory.write_within {m : Memory} {a cap : Nat} {b : Byte} (ha : a < cap) (h : m.within cap = true) :
    (m.write a b).within cap = true := by
  simp only [Memory.within, List.all_eq_true, decide_eq_true_eq, Memory.write] at h ⊢
  intro c hc
  split at hc
  · exact h c (Memory.mem_erase hc)
  · rcases Memory.mem_insert hc with rfl | hc
    · exact ha
    · exact h c hc

/-- Two buffers in canonical form that read alike are equal. -/
theorem Memory.eq_of_read {m m' : Memory} (h : m.wf = true) (h' : m'.wf = true) (hread : ∀ a, m.read a = m'.read a) :
    m = m' := by
  induction m generalizing m' with
  | nil =>
    cases m' with
    | nil => rfl
    | cons c rest =>
      obtain ⟨k, v⟩ := c
      obtain ⟨hv, -, -⟩ := Memory.wf_cons.mp h'
      have := hread k
      simp only [Memory.read, if_pos] at this
      exact absurd this.symm hv
  | cons c rest ih =>
    obtain ⟨k, v⟩ := c
    obtain ⟨hv, habove, hr⟩ := Memory.wf_cons.mp h
    cases m' with
    | nil =>
      have := hread k
      simp only [Memory.read, if_pos] at this
      exact absurd this hv
    | cons c' rest' =>
      obtain ⟨k', v'⟩ := c'
      obtain ⟨hv', habove', hr'⟩ := Memory.wf_cons.mp h'
      have hkk : k = k' := by
        rcases Nat.lt_trichotomy k k' with hlt | heq | hgt
        · have := hread k
          simp only [Memory.read, if_pos] at this
          rw [if_neg (by omega), Memory.read_above habove' (by omega)] at this
          exact absurd this hv
        · exact heq
        · have := hread k'
          simp only [Memory.read, if_pos] at this
          rw [if_neg (by omega), Memory.read_above habove (by omega)] at this
          exact absurd this.symm hv'
      subst hkk
      have hvv : v = v' := by simpa [Memory.read] using hread k
      subst hvv
      congr 1
      refine ih hr hr' fun a => ?_
      by_cases ha : k = a
      · subst ha
        rw [Memory.read_above habove (Nat.le_refl _), Memory.read_above habove' (Nat.le_refl _)]
      · simpa [Memory.read, ha] using hread a

theorem Memory.reset_wf : Memory.wf State.reset.buf = true := rfl

end Sys2Proof.Machine
end

