-- ==== Sys2Proof/Laws/Operands.lean ====
section
/-!
SUPPORT. Laws of operand assembly and of the outbound frame.
-/

namespace Sys2Proof.Machine

/-- R13: `hi:lo` is `256*hi + lo`. -/
theorem joinBytes_toNat (hi lo : Byte) : (joinBytes hi lo).toNat = 256 * hi.toNat + lo.toNat := by
  simp only [joinBytes, BitVec.toNat_append]
  rw [← Nat.shiftLeft_add_eq_or_of_lt lo.isLt, Nat.shiftLeft_eq]
  omega

theorem hiByte_toNat (v : Half) : (hiByte v).toNat = v.toNat / 256 := by
  have := v.isLt
  simp only [hiByte, BitVec.extractLsb'_toNat, Nat.shiftRight_eq_div_pow]
  omega

theorem loByte_toNat (v : Half) : (loByte v).toNat = v.toNat % 256 := by
  simp only [loByte, BitVec.extractLsb'_toNat, Nat.shiftRight_eq_div_pow]
  omega

@[simp] theorem joinBytes_hi_lo (v : Half) : joinBytes (hiByte v) (loByte v) = v :=
  BitVec.eq_of_toNat_eq (by rw [joinBytes_toNat, hiByte_toNat, loByte_toNat]; omega)

@[simp] theorem hiByte_join (hi lo : Byte) : hiByte (joinBytes hi lo) = hi :=
  BitVec.eq_of_toNat_eq (by have := lo.isLt; rw [hiByte_toNat, joinBytes_toNat]; omega)

@[simp] theorem loByte_join (hi lo : Byte) : loByte (joinBytes hi lo) = lo :=
  BitVec.eq_of_toNat_eq (by have := lo.isLt; rw [loByte_toNat, joinBytes_toNat]; omega)

@[simp] theorem joinBytes_zero : joinBytes 0 0 = 0 := by decide

/-- R131: the clamp is the smaller of the operand and 30. -/
theorem clampVolume_toNat (v : Byte) : (clampVolume v).toNat = min v.toNat 30 := by
  by_cases h : v ≤ volMax
  · have : v.toNat ≤ 30 := h
    rw [clampVolume, if_pos h]; omega
  · have : ¬ v.toNat ≤ 30 := h
    rw [clampVolume, if_neg h, volMax]
    show 30 = _
    omega

theorem clampVolume_of_le {v : Byte} (h : v ≤ volMax) : clampVolume v = v := if_pos h

@[simp] theorem encodeFrame_length (op hi lo : Byte) : (encodeFrame op hi lo).length = 8 := rfl

@[simp] theorem rxFrame_length (code : Byte) (f : RxFields) : (rxFrame code f).length = 10 := rfl

end Sys2Proof.Machine
end

