-- ==== Sys2Proof/Laws/Framer.lean ====
section
/-!
SUPPORT. What FEED and PARSE can do, said once: the equation of each arm, the fields that FEED leaves alone, and FEED over a
nominal frame.
-/

namespace Sys2Proof.Machine

/-! ### Buffer accesses -/

theorem readBuf_ok {s : State} {a : Nat} (h : a < s.cfg.cap) : readBuf s a = .ok (s.buf.read a) := if_pos h

theorem writeBuf_ok {s : State} {a : Nat} (b : Byte) (h : a < s.cfg.cap) :
    writeBuf a b s = .ok { s with buf := s.buf.write a b } := if_pos h

/-! ### PARSE -/

/-- R170: the response code that PARSE reads. -/
def State.code (s : State) : Byte := s.buf.read 3

/-- R170: the data value that PARSE reads. -/
def State.data (s : State) : Half := joinBytes (s.buf.read 5) (s.buf.read 6)

/-- PARSE where its three cells exist. -/
theorem parse_ok {s : State} (h : 6 < s.cfg.cap) :
    parse s = .ok (dispatchResponse s.code s.data (s.recordResponse s.code s.data)) := by
  simp only [parse, readBuf_ok (show 3 < s.cfg.cap by omega), readBuf_ok (show 5 < s.cfg.cap by omega), readBuf_ok h,
    State.code, State.data]

/-- PARSE where one of its cells does not exist. -/
theorem parse_fault {s : State} (h : ¬ 6 < s.cfg.cap) : ∃ e, parse s = .error e := by
  have h6 : readBuf s 6 = .error (.noSuchCell 6) := if_neg h
  cases h3 : readBuf s 3 with
  | error e => exact ⟨e, by simp only [parse, h3]⟩
  | ok c =>
    cases h5 : readBuf s 5 with
    | error e => exact ⟨e, by simp only [parse, h3, h5]⟩
    | ok d => exact ⟨_, by simp only [parse, h3, h5, h6]; rfl⟩

/-- R172, R184: every field PARSE's dispatch leaves alone. -/
theorem dispatchResponse_frame (code : Byte) (data : Half) (s : State) :
    (dispatchResponse code data s).1 =
      { s with
        volume := (dispatchResponse code data s).1.volume, track := (dispatchResponse code data s).1.track,
        status := (dispatchResponse code data s).1.status, media := (dispatchResponse code data s).1.media } := by
  simp only [dispatchResponse]
  repeat' split
  all_goals rfl

/-- R172, R183: PARSE's result says whether the code is in the set of R100. -/
theorem dispatchResponse_result (code : Byte) (data : Half) (s : State) :
    (dispatchResponse code data s).2 = if code ∈ s.cfg.responseCodes then .ok else .unrecognizedResponse := by
  simp only [dispatchResponse, Cfg.responseCodes, List.mem_cons, List.not_mem_nil]
  repeat' split
  all_goals simp_all

/-! ### The arms of FEED -/

/-- R151. -/
theorem feed_start {s : State} (hs : s.fstate = .idle) (hcap : 0 < s.cfg.cap) :
    feed sof s = .ok (emitFeed .cont { s with buf := s.buf.write 0 sof, cursor := 1, fstate := .inFrame }) := by
  simp only [feed, hs, if_pos, feedStart, writeBuf_ok sof hcap]

/-- R152. -/
theorem feed_stray {s : State} {b : Byte} (hs : s.fstate = .idle) (hb : b ≠ sof) : feed b s = .ok (emitFeed .cont s) := by
  simp only [feed, hs, if_neg hb, feedStray]

/-- R153, R157. -/
theorem feed_append {s : State} {b : Byte} (hs : s.fstate = .inFrame) (hc : s.cursor < s.cfg.cap) (hb : b ≠ eof)
    (hfull : s.cursor + 1 ≠ s.cfg.cap) :
    feed b s = .ok (emitFeed .cont { s with buf := s.buf.write s.cursor b, cursor := s.cursor + 1 }) := by
  simp only [feed, hs, writeBuf_ok b hc, if_neg hb, if_neg hfull, feedAdvance]

/-- R155. -/
theorem feed_overflow {s : State} {b : Byte} (hs : s.fstate = .inFrame) (hb : b ≠ eof) (hfull : s.cursor + 1 = s.cfg.cap) :
    feed b s = .ok (emitFeed .cont { s with buf := s.buf.write s.cursor b, cursor := 0, fstate := .idle }) := by
  simp only [feed, hs, writeBuf_ok b (show s.cursor < s.cfg.cap by omega), if_neg hb, if_pos hfull, feedOverflow]

/-- The state that PARSE sees in a completion step (R154): the end marker appended, the framer idle again. -/
def State.completed (s : State) : State := { s with buf := s.buf.write s.cursor eof, cursor := 0, fstate := .idle }

/-- R154, R158, R171, R172: what PARSE of a response and the result of the completion step do. -/
def dispatched (code : Byte) (data : Half) (s : State) : State :=
  emitFeed (feedResultOf (dispatchResponse code data (s.recordResponse code data)).2)
    (dispatchResponse code data (s.recordResponse code data)).1

/-- R154, R156: completion, whatever the cursor. -/
theorem feed_complete {s : State} (hs : s.fstate = .inFrame) (hc : s.cursor < s.cfg.cap) (hcap : 6 < s.cfg.cap) :
    feed eof s = .ok (dispatched s.completed.code s.completed.data s.completed) := by
  have h : parse s.completed = _ := parse_ok (s := s.completed) hcap
  simp only [feed, hs, writeBuf_ok eof hc, if_pos, feedComplete, dispatched]
  simp only [State.completed] at h ⊢
  rw [h]

theorem dispatched_frame (code : Byte) (data : Half) (s : State) :
    dispatched code data s =
      { s with
        volume := (dispatched code data s).volume, track := (dispatched code data s).track,
        status := (dispatched code data s).status, media := (dispatched code data s).media,
        lastRspCode := code, lastRspData := data, lastRspValid := true,
        feedLog := (dispatched code data s).feedLog, pulses := (dispatched code data s).pulses } := by
  have h := dispatchResponse_frame code data (s.recordResponse code data)
  simp only [dispatched]
  rw [h]
  rfl

/-- R158: what the completion step returns. -/
theorem dispatched_feedLog (code : Byte) (data : Half) (s : State) :
    (dispatched code data s).feedLog =
      s.feedLog ++ [feedResultOf (dispatchResponse code data (s.recordResponse code data)).2] := by
  simp only [dispatched, emitFeed_feedLog]; rw [dispatchResponse_frame]; rfl

theorem dispatched_pulses (code : Byte) (data : Half) (s : State) :
    (dispatched code data s).pulses =
      { s.pulses with feedDone := some (feedResultOf (dispatchResponse code data (s.recordResponse code data)).2) } := by
  simp only [dispatched, emitFeed_pulses]; rw [dispatchResponse_frame]; rfl

theorem dispatched_buf (code : Byte) (data : Half) (s : State) : (dispatched code data s).buf = s.buf := by
  rw [dispatched_frame]

theorem dispatched_code (code : Byte) (data : Half) (s : State) : (dispatched code data s).lastRspCode = code := by
  rw [dispatched_frame]

theorem dispatched_data (code : Byte) (data : Half) (s : State) : (dispatched code data s).lastRspData = data := by
  rw [dispatched_frame]

/-- The cells that PARSE sees in a completion step. -/
theorem read_completed {s : State} (h : s.buf.wf = true) (a : Nat) :
    s.completed.buf.read a = if a = s.cursor then eof else s.buf.read a :=
  Memory.read_write s.cursor a eof h

/-- What FEED does, once: one of its five arms (R151 to R155). -/
theorem feed_cases {s s' : State} {b : Byte} (h : feed b s = .ok s') :
    (s.fstate = .idle ∧ b = sof ∧ 0 < s.cfg.cap ∧
        s' = emitFeed .cont { s with buf := s.buf.write 0 sof, cursor := 1, fstate := .inFrame }) ∨
    (s.fstate = .idle ∧ b ≠ sof ∧ s' = emitFeed .cont s) ∨
    (s.fstate = .inFrame ∧ b = eof ∧ s.cursor < s.cfg.cap ∧ 6 < s.cfg.cap ∧
        s' = dispatched s.completed.code s.completed.data s.completed) ∨
    (s.fstate = .inFrame ∧ b ≠ eof ∧ s.cursor < s.cfg.cap ∧ s.cursor + 1 = s.cfg.cap ∧
        s' = emitFeed .cont { s with buf := s.buf.write s.cursor b, cursor := 0, fstate := .idle }) ∨
    (s.fstate = .inFrame ∧ b ≠ eof ∧ s.cursor < s.cfg.cap ∧ s.cursor + 1 ≠ s.cfg.cap ∧
        s' = emitFeed .cont { s with buf := s.buf.write s.cursor b, cursor := s.cursor + 1 }) := by
  cases hs : s.fstate with
  | idle =>
    by_cases hb : b = sof
    · subst hb
      by_cases hcap : 0 < s.cfg.cap
      · rw [feed_start hs hcap] at h; cases h; simp [hcap]
      · simp [feed, hs, feedStart, writeBuf, hcap] at h
    · rw [feed_stray hs hb] at h; cases h; simp [hb]
  | inFrame =>
    by_cases hc : s.cursor < s.cfg.cap
    · by_cases hb : b = eof
      · subst hb
        by_cases hcap : 6 < s.cfg.cap
        · rw [feed_complete hs hc hcap] at h; cases h; simp [hc, hcap]
        · obtain ⟨e, he⟩ := parse_fault (s := s.completed) hcap
          simp only [State.completed] at he
          simp only [feed, hs, writeBuf_ok eof hc, if_pos, feedComplete, he] at h
          cases h
      · by_cases hfull : s.cursor + 1 = s.cfg.cap
        · rw [feed_overflow hs hb hfull] at h; cases h; simp [hb, hc, hfull]
        · rw [feed_append hs hc hb hfull] at h; cases h; simp [hb, hc, hfull, hs]
    · simp [feed, hs, writeBuf, hc] at h

/-- FEED changes only the framer, the buffer, the Device State fields PARSE writes, and its own result. -/
theorem feed_frame {s s' : State} {b : Byte} (h : feed b s = .ok s') :
    s' = { s with
      volume := s'.volume, track := s'.track, status := s'.status, media := s'.media, lastRspCode := s'.lastRspCode,
      lastRspData := s'.lastRspData, lastRspValid := s'.lastRspValid, fstate := s'.fstate, cursor := s'.cursor,
      buf := s'.buf, feedLog := s'.feedLog, pulses := s'.pulses } := by
  rcases feed_cases h with ⟨-, -, -, rfl⟩ | ⟨-, -, rfl⟩ | ⟨-, -, -, -, rfl⟩ | ⟨-, -, -, -, rfl⟩ | ⟨-, -, -, -, rfl⟩
  · rfl
  · rfl
  · rw [dispatched_frame]; rfl
  · rfl
  · rfl

/-- FEED never faults where the cursor is inside an admissible buffer (R150, R153, R159). -/
theorem feed_total (b : Byte) {s : State} (hc : s.cursor < s.cfg.cap) (hcap : 6 < s.cfg.cap) :
    ∃ s', feed b s = .ok s' := by
  cases hs : s.fstate with
  | idle =>
    by_cases hb : b = sof
    · subst hb; exact ⟨_, feed_start hs (by omega)⟩
    · exact ⟨_, feed_stray hs hb⟩
  | inFrame =>
    by_cases hb : b = eof
    · subst hb; exact ⟨_, feed_complete hs hc hcap⟩
    · by_cases hfull : s.cursor + 1 = s.cfg.cap
      · exact ⟨_, feed_overflow hs hb hfull⟩
      · exact ⟨_, feed_append hs hc hb hfull⟩

/-! ### FEED* -/

@[simp] theorem feedAll_nil (s : State) : feedAll [] s = .ok s := rfl

theorem feedAll_cons {s s' : State} {b : Byte} (bs : List Byte) (h : feed b s = .ok s') :
    feedAll (b :: bs) s = feedAll bs s' := by
  simp only [feedAll, h]

/-- FEED* in two parts. -/
theorem feedAll_append (bs cs : List Byte) (s : State) :
    feedAll (bs ++ cs) s = match feedAll bs s with
      | .ok s' => feedAll cs s'
      | .error f => .error f := by
  induction bs generalizing s with
  | nil => rfl
  | cons b bs ih =>
    simp only [List.cons_append, feedAll]
    cases feed b s with
    | ok s' => exact ih s'
    | error f => rfl

/-- A property that every FEED keeps is kept by FEED*. -/
theorem feedAll_keeps {P : State → Prop} (hP : ∀ {s s' : State} {b : Byte}, feed b s = .ok s' → P s → P s')
    {bs : List Byte} {s s' : State} (h : feedAll bs s = .ok s') (hs : P s) : P s' := by
  induction bs generalizing s with
  | nil => cases h; exact hs
  | cons b bs ih =>
    simp only [feedAll] at h
    split at h
    · exact ih h (hP ‹_› hs)
    · cases h

/-- A byte list whose writes start at `a`, one cell after the other (R153). -/
def Memory.writeAll (m : Memory) (a : Nat) : List Byte → Memory
  | [] => m
  | b :: bs => Memory.writeAll (m.write a b) (a + 1) bs

theorem Memory.writeAll_wf {m : Memory} {a : Nat} {bs : List Byte} (h : m.wf = true) : (m.writeAll a bs).wf = true := by
  induction bs generalizing m a with
  | nil => exact h
  | cons b bs ih => exact ih (Memory.write_wf h)

theorem Memory.read_writeAll {m : Memory} (a x : Nat) (bs : List Byte) (h : m.wf = true) :
    (m.writeAll a bs).read x = if a ≤ x ∧ x < a + bs.length then bs.getD (x - a) 0 else m.read x := by
  induction bs generalizing m a with
  | nil => simp [Memory.writeAll]
  | cons b bs ih =>
    simp only [Memory.writeAll]
    rw [ih _ (Memory.write_wf h), Memory.read_write a x b h]
    simp only [List.length_cons]
    by_cases hx : x = a
    · subst hx; rw [if_neg (by omega)]; simp
    · by_cases hr : a + 1 ≤ x ∧ x < a + 1 + bs.length
      · rw [if_pos hr, if_pos (by omega)]
        obtain ⟨d, rfl⟩ : ∃ d, x = a + 1 + d := ⟨x - (a + 1), by omega⟩
        rw [show a + 1 + d - (a + 1) = d by omega, show a + 1 + d - a = d + 1 by omega]; simp
      · rw [if_neg hr, if_neg hx, if_neg (by omega)]

/-- Payload bytes received in a frame, with room left after them: each is stored and returns Continue (R153). -/
theorem feedAll_payload {bs : List Byte} {s : State} (hs : s.fstate = .inFrame) (hb : eof ∉ bs)
    (hroom : s.cursor + bs.length < s.cfg.cap) :
    feedAll bs s = .ok
      { s with
        buf := s.buf.writeAll s.cursor bs, cursor := s.cursor + bs.length,
        feedLog := s.feedLog ++ List.replicate bs.length .cont,
        pulses := if bs = [] then s.pulses else { s.pulses with feedDone := some .cont } } := by
  induction bs generalizing s with
  | nil => simp [Memory.writeAll]
  | cons b bs ih =>
    simp only [List.mem_cons, not_or] at hb
    simp only [List.length_cons] at hroom
    rw [feedAll_cons bs (feed_append hs (by omega) (Ne.symm hb.1) (by omega)), ih (by exact hs) hb.2 (by simp; omega)]
    simp only [emitFeed, Memory.writeAll, List.length_cons, List.replicate_succ, List.append_assoc, List.singleton_append,
      reduceCtorEq, if_false, Nat.add_assoc, Nat.add_comm 1 bs.length, ite_self]

/-- The state in which a nominal frame's PARSE runs (R161): the ten bytes in cells 0 to 9, the framer idle, nine Continue
returned. -/
def State.received (s : State) (code : Byte) (f : RxFields) : State :=
  { s with
    buf := s.buf.writeAll 0 (rxFrame code f), cursor := 0, fstate := .idle,
    feedLog := s.feedLog ++ List.replicate 9 .cont, pulses := { s.pulses with feedDone := some .cont } }

theorem received_code {s : State} {code : Byte} {f : RxFields} (h : s.buf.wf = true) : (s.received code f).code = code :=
  Memory.read_writeAll 0 3 (rxFrame code f) h

theorem received_data {s : State} {code : Byte} {f : RxFields} (h : s.buf.wf = true) :
    (s.received code f).data = joinBytes f.hi f.lo :=
  congrArg₂ joinBytes (Memory.read_writeAll 0 5 (rxFrame code f) h) (Memory.read_writeAll 0 6 (rxFrame code f) h)

/-- R151, R153: the first nine bytes of a nominal frame, from Idle. -/
theorem feedAll_header {s : State} {code : Byte} {f : RxFields} (hs : s.fstate = .idle) (hcap : 10 ≤ s.cfg.cap)
    (hn : f.Nominal code) :
    ∃ t, feedAll [sof, f.version, f.length, code, f.feedback, f.hi, f.lo, f.rsv7, f.rsv8] s = .ok t ∧
      t.fstate = .inFrame ∧ t.cursor = 9 ∧ t.cfg = s.cfg ∧ t.completed = s.received code f := by
  obtain ⟨h1, h2, h3, h4, h5, h6, h7, h8⟩ := hn
  rw [feedAll_cons _ (feed_start hs (by omega)),
    feedAll_payload (s := emitFeed .cont { s with buf := s.buf.write 0 sof, cursor := 1, fstate := .inFrame }) rfl
      (by simp [Ne.symm h1, Ne.symm h2, Ne.symm h3, Ne.symm h4, Ne.symm h5, Ne.symm h6, Ne.symm h7, Ne.symm h8])
      (by show 1 + 8 < s.cfg.cap; omega)]
  refine ⟨_, rfl, rfl, rfl, rfl, ?_⟩
  simp only [State.completed, State.received, emitFeed, List.append_assoc]
  rfl

/-- R161: a nominal inbound frame from Idle, for every capacity of at least 10. -/
theorem feedAll_nominal {s : State} {code : Byte} {f : RxFields} (hs : s.fstate = .idle) (hcap : 10 ≤ s.cfg.cap)
    (hwf : s.buf.wf = true) (hn : f.Nominal code) :
    feedAll (rxFrame code f) s = .ok (dispatched code (joinBytes f.hi f.lo) (s.received code f)) := by
  obtain ⟨t, ht, hin, hcur, hcfg, hcomp⟩ := feedAll_header hs hcap hn
  have hsplit : rxFrame code f = [sof, f.version, f.length, code, f.feedback, f.hi, f.lo, f.rsv7, f.rsv8] ++ [eof] := rfl
  rw [hsplit, feedAll_append, ht]
  simp only []
  rw [feedAll_cons [] (feed_complete hin (by rw [hcur, hcfg]; omega) (by rw [hcfg]; omega)), feedAll_nil, hcomp,
    received_code hwf, received_data hwf]

end Sys2Proof.Machine
end

