-- ==== Sys2Proof/Laws/Transport.lean ====
section
/-!
SUPPORT. What the TX frame channel and the sequencer can do, said once: `cmd_ready`, the run over the answers that stand ready,
and SEND in each of its cases (R122 to R125, R141).
-/

namespace Sys2Proof.Machine

theorem cmdReady_iff {s : State} : cmdReady s = true ↔ s.txBusy = false ∧ s.seq = .idle := by
  simp [cmdReady]

theorem txValid_iff {s : State} : txValid s = true ↔ s.txBusy = true ∧ s.cfg.hasSend = true := by
  simp [txValid]

/-- R67: with the send capability, and where `tx_busy` is 0, no rejection ends. -/
theorem endRejection_of_send {s : State} (h : s.cfg.hasSend = true) : endRejection s = s := by
  simp [endRejection, h]

theorem endRejection_of_idle {s : State} (h : s.txBusy = false) : endRejection s = s := by
  simp only [endRejection, h, Bool.false_and]
  rw [← h]

/-- R67: with the send capability an accepted command is presented, as the transaction SEND is. -/
theorem acceptCommand_of_send (op hi lo : Byte) {s : State} (h : s.cfg.hasSend = true) :
    acceptCommand op hi lo s = presentFrame op hi lo s := by
  simp only [acceptCommand, h, if_true]

/-- R67, R125: without the send capability an accepted command is rejected, and once the completion cycle has ended the state is
that of the rejected transaction SEND but for the operand latch. -/
theorem endRejection_acceptCommand (op hi lo : Byte) {s : State} (h : s.cfg.hasSend = false) (hb : s.txBusy = false) :
    endRejection (acceptCommand op hi lo s) = { acceptSend op hi lo s with txCmd := ⟨op, hi, lo⟩ } := by
  simp only [acceptCommand, acceptSend, h, Bool.false_eq_true, if_false, endRejection, emitCommand, Bool.and_false, hb]

theorem not_cmdReady_of_busy {s : State} (h : s.txBusy = true) : cmdReady s = false := by
  simp [cmdReady, h]

theorem not_cmdReady_of_seq {s : State} (h : s.seq ≠ .idle) : cmdReady s = false := by
  simp [cmdReady, h]

/-! ### The answers that stand ready -/

/-- Where nothing is outstanding no answer is taken. -/
theorem settleWith_ready {s : State} (as : List Answer) (h : cmdReady s = true) : settleWith as s = { s with replies := as } := by
  cases as with
  | nil => rfl
  | cons a rest => simp only [settleWith, h, if_pos]

/-- Where a call is outstanding the oldest answer is taken. -/
theorem settleWith_waiting {s : State} (a : Answer) (rest : List Answer) (h : cmdReady s = false) :
    settleWith (a :: rest) s = settleWith rest (answer a s) := by
  simp only [settleWith, h, Bool.false_eq_true, if_false]

/-- A property that every answer keeps, and that does not speak of the answers to come, is kept by the run over them. -/
theorem settleWith_keeps {P : State → Prop} (hanswer : ∀ a s, P s → P (answer a s))
    (hreplies : ∀ as s, P s → P { s with replies := as }) (as : List Answer) {s : State} (hs : P s) : P (settleWith as s) := by
  induction as generalizing s with
  | nil => exact hreplies [] s hs
  | cons a rest ih =>
    simp only [settleWith]
    split
    · exact hreplies _ s hs
    · exact ih (hanswer a s hs)

/-! ### SEND -/

section Send
variable {s : State} (op hi lo : Byte) (rest : List Answer)

/-- R124: a SEND whose handoff is answered `ok`. -/
theorem sendCommand_ok (hready : cmdReady s = true) (hsend : s.cfg.hasSend = true) (hr : s.replies = .ok :: rest) :
    sendCommand op hi lo s = .next
      { s with
        lastCmdOp := op, lastCmdData := joinBytes hi lo, lastRspCode := 0, lastRspData := 0, lastRspValid := false,
        txCmd := ⟨op, hi, lo⟩, replies := rest, txLog := s.txLog ++ [encodeFrame op hi lo],
        calls := s.calls ++ [.handoff (encodeFrame op hi lo)], hostLog := s.hostLog ++ [.status .ok],
        pulses := { s.pulses with cmdDone := some .ok } } := by
  obtain ⟨hb, hq⟩ := cmdReady_iff.mp hready
  simp only [sendCommand, hready, if_pos, acceptSend, hsend, settle, presentFrame_replies, hr]
  rw [settleWith_waiting _ _ (not_cmdReady_of_busy rfl)]
  simp only [answer, txValid, presentFrame_txBusy, presentFrame_cfg, hsend, Bool.and_self, if_pos, answerHandoff, presentFrame_seq, hq]
  rw [settleWith_ready]
  · simp only [emitCommand, commitSend, presentFrame, logCall, State.clearResponse, hb, hq]
  · exact cmdReady_iff.mpr ⟨rfl, hq⟩

/-- R123: a SEND whose handoff is answered `fail`. -/
theorem sendCommand_fail (hready : cmdReady s = true) (hsend : s.cfg.hasSend = true) (hr : s.replies = .fail :: rest) :
    sendCommand op hi lo s = .next
      { s with
        txCmd := ⟨op, hi, lo⟩, replies := rest, calls := s.calls ++ [.handoff (encodeFrame op hi lo)],
        hostLog := s.hostLog ++ [.status .transportError], pulses := { s.pulses with cmdDone := some .transportError } } := by
  obtain ⟨hb, hq⟩ := cmdReady_iff.mp hready
  simp only [sendCommand, hready, if_pos, acceptSend, hsend, settle, presentFrame_replies, hr]
  rw [settleWith_waiting _ _ (not_cmdReady_of_busy rfl)]
  simp only [answer, txValid, presentFrame_txBusy, presentFrame_cfg, hsend, Bool.and_self, if_pos, answerHandoff, presentFrame_seq, hq]
  rw [settleWith_ready]
  · simp only [emitCommand, presentFrame, logCall, hb, hq]
  · simp [cmdReady]

/-- R141: a SEND whose handoff is not answered yet stays outstanding. -/
theorem sendCommand_waits (hready : cmdReady s = true) (hsend : s.cfg.hasSend = true) (hr : s.replies = []) :
    sendCommand op hi lo s = .next (presentFrame op hi lo s) := by
  simp only [sendCommand, hready, if_pos, acceptSend, hsend, settle, presentFrame_replies, hr, settleWith]
  congr 1
  rw [← hr]
  rfl

/-- R125: a SEND without the send capability. -/
theorem sendCommand_noCapability (hready : cmdReady s = true) (hsend : s.cfg.hasSend = false) :
    sendCommand op hi lo s = .next (emitCommand .invalidParameter s) := by
  simp only [sendCommand, hready, if_pos, acceptSend, hsend, Bool.false_eq_true, if_false, settle]
  rw [settleWith_ready (s := emitCommand .invalidParameter s) _ hready]

/-- R260, U6: a SEND while the command port is not ready. -/
theorem sendCommand_notReady (hready : cmdReady s = false) : sendCommand op hi lo s = .refused .commandNotReady := by
  simp only [sendCommand, hready, Bool.false_eq_true, if_false]

end Send

/-! ### Frames of the channel operations -/

/-- An answer writes none of the fields that only the parser writes but by the resets of DEINIT, and never the buffer, the
configuration, the agenda, or the answers to come. -/
theorem answer_frame (a : Answer) (s : State) :
    (answer a s).buf = s.buf ∧ (answer a s).cfg = s.cfg ∧ (answer a s).agenda = s.agenda ∧
      (answer a s).replies = s.replies ∧ (answer a s).feedLog = s.feedLog := by
  simp only [answer, answerHandoff, initSend, finishDeinit]
  repeat' split
  all_goals simp

end Sys2Proof.Machine
end

