-- ==== Sys2Proof/Laws/Dispatch.lean ====
section
/-!
SUPPORT. What each group of instructions does, said once: the commands are SENDs, the received rows are FEEDs.
-/

namespace Sys2Proof.Machine

/-- R126 to R140, R122: a command is SEND of some triple, the same in every state with this configuration. -/
theorem exec_sends {i : Instr} (h : sends i = true) (c : Cfg) :
    ∃ op hi lo, ∀ s : State, s.cfg = c → exec i s = sendCommand op hi lo s := by
  cases i with
  | send op hi lo => exact ⟨op, hi, lo, fun s _ => rfl⟩
  | next => exact ⟨c.opNext, 0, 0, fun s hs => by subst hs; rfl⟩
  | prev => exact ⟨c.opPrev, 0, 0, fun s hs => by subst hs; rfl⟩
  | playIndex n => exact ⟨c.opPlayIndex, hiByte n, loByte n, fun s hs => by subst hs; rfl⟩
  | volUp => exact ⟨c.opVolUp, 0, 0, fun s hs => by subst hs; rfl⟩
  | volDown => exact ⟨c.opVolDown, 0, 0, fun s hs => by subst hs; rfl⟩
  | volSet v => exact ⟨c.opVolSet, 0, clampVolume v, fun s hs => by subst hs; rfl⟩
  | selectDevice d => exact ⟨c.opSelectDevice, hiByte d, loByte d, fun s hs => by subst hs; rfl⟩
  | reset => exact ⟨c.opReset, hiByte c.resetData, loByte c.resetData, fun s hs => by subst hs; rfl⟩
  | play => exact ⟨c.opPlay, 0, 0, fun s hs => by subst hs; rfl⟩
  | pause => exact ⟨c.opPause, 0, 0, fun s hs => by subst hs; rfl⟩
  | playFolderFile f n => exact ⟨c.opPlayFolderFile, f, n, fun s hs => by subst hs; rfl⟩
  | stop => exact ⟨c.opStop, 0, 0, fun s hs => by subst hs; rfl⟩
  | queryStatus => exact ⟨c.opQueryStatus, 0, 0, fun s hs => by subst hs; rfl⟩
  | queryVolume => exact ⟨c.opQueryVolume, 0, 0, fun s hs => by subst hs; rfl⟩
  | queryTrack => exact ⟨c.opQueryTrack, 0, 0, fun s hs => by subst hs; rfl⟩
  | rspMediaInserted => cases h
  | rspPlayCompleted => cases h
  | rspError => cases h
  | rspAck => cases h
  | rspStatus => cases h
  | rspVolume => cases h
  | rspTrackCount => cases h
  | rspFolder => cases h
  | rspFolderTrackCount => cases h
  | rspFolderFile => cases h
  | rspUnrecognized => cases h
  | byteSofIdle => cases h
  | byteStrayIdle => cases h
  | byteEofInframe => cases h
  | bytePayloadInframe => cases h
  | bytePayloadOverflow => cases h
  | encode => cases h
  | init => cases h
  | deinit => cases h

/-- FEED* of one byte is FEED. -/
theorem feedAll_single (b : Byte) (s : State) : feedAll [b] s = feed b s := by
  simp only [feedAll]
  cases feed b s <;> rfl

/-- R150: a received row is FEED* of some bytes. -/
theorem exec_receives {i : Instr} (h : receives i = true) (s : State) : ∃ bs, exec i s = outcomeOf (feedAll bs s) := by
  cases i with
  | rspMediaInserted f => exact ⟨_, rfl⟩
  | rspPlayCompleted f => exact ⟨_, rfl⟩
  | rspError f => exact ⟨_, rfl⟩
  | rspAck f => exact ⟨_, rfl⟩
  | rspStatus f => exact ⟨_, rfl⟩
  | rspVolume f => exact ⟨_, rfl⟩
  | rspTrackCount f => exact ⟨_, rfl⟩
  | rspFolder f => exact ⟨_, rfl⟩
  | rspFolderTrackCount f => exact ⟨_, rfl⟩
  | rspFolderFile f => exact ⟨_, rfl⟩
  | rspUnrecognized code f => exact ⟨_, rfl⟩
  | byteSofIdle => exact ⟨[sof], by rw [feedAll_single]; rfl⟩
  | byteStrayIdle b => exact ⟨[b], by rw [feedAll_single]; rfl⟩
  | byteEofInframe => exact ⟨[eof], by rw [feedAll_single]; rfl⟩
  | bytePayloadInframe b => exact ⟨[b], by rw [feedAll_single]; rfl⟩
  | bytePayloadOverflow b => exact ⟨[b], by rw [feedAll_single]; rfl⟩
  | send => cases h
  | next => cases h
  | prev => cases h
  | playIndex => cases h
  | volUp => cases h
  | volDown => cases h
  | volSet => cases h
  | selectDevice => cases h
  | reset => cases h
  | play => cases h
  | pause => cases h
  | playFolderFile => cases h
  | stop => cases h
  | queryStatus => cases h
  | queryVolume => cases h
  | queryTrack => cases h
  | encode => cases h
  | init => cases h
  | deinit => cases h

/-- Every instruction is a command, a received row, ENCODE, INIT or DEINIT. -/
theorem instr_groups (i : Instr) :
    sends i = true ∨ receives i = true ∨ (∃ op hi lo, i = .encode op hi lo) ∨ i = .init ∨ i = .deinit := by
  cases i
  all_goals
    first
      | exact .inl rfl
      | exact .inr (.inl rfl)
      | exact .inr (.inr (.inl ⟨_, _, _, rfl⟩))
      | exact .inr (.inr (.inr (.inl rfl)))
      | exact .inr (.inr (.inr (.inr rfl)))

end Sys2Proof.Machine
end

