-- ==== Sys2Proof/Laws/Decode.lean ====
section
/-!
SUPPORT. What the decoder answers on the frames of the two formats, and the words of what it answers.
-/

namespace Sys2Proof.Machine

theorem decode_tx (c : Cfg) (v : FramerView) (op hi lo : Byte) :
    decode c v (.bytes (encodeFrame op hi lo)) = .ok (decodeCommand c op hi lo) := by
  simp [decode, encodeFrame]

theorem decode_rx (c : Cfg) (v : FramerView) (code : Byte) (f : RxFields) :
    decode c v (.bytes (rxFrame code f)) = .ok (decodeResponse c code f) := by
  simp [decode, rxFrame]

/-- R107: the word of the row that an outbound frame decodes to is that frame. -/
theorem encode_decodeCommandEnd (c : Cfg) (op hi lo : Byte) :
    encode c (decodeCommandEnd c op hi lo) = .bytes (encodeFrame op hi lo) := by
  generalize h : decodeCommandEnd c op hi lo = i
  simp only [decodeCommandEnd] at h
  repeat' (split at h)
  all_goals subst h
  all_goals simp only [encode]
  all_goals simp [*]

theorem encode_decodeCommandMiddle (c : Cfg) (op hi lo : Byte) :
    encode c (decodeCommandMiddle c op hi lo) = .bytes (encodeFrame op hi lo) := by
  generalize h : decodeCommandMiddle c op hi lo = i
  simp only [decodeCommandMiddle] at h
  split at h
  · rename_i hc; subst h; simp only [encode, hc.1, hc.2.1, clampVolume_of_le hc.2.2]
  split at h
  · rename_i hc; subst h; simp only [encode, hc, hiByte_join, loByte_join]
  split at h
  · rename_i hc; subst h; simp only [encode, ← hc.2, hc.1, hiByte_join, loByte_join]
  split at h
  · rename_i hc; subst h; simp only [encode, hc]
  split at h
  · rename_i hc; subst h; simp only [encode, hc]
  · subst h; exact encode_decodeCommandEnd c op hi lo

theorem encode_decodeCommand (c : Cfg) (op hi lo : Byte) :
    encode c (decodeCommand c op hi lo) = .bytes (encodeFrame op hi lo) := by
  generalize h : decodeCommand c op hi lo = i
  simp only [decodeCommand] at h
  split at h
  · rename_i hc; subst h; simp only [encode, hc]
  split at h
  · rename_i hc; subst h; simp only [encode, hc]
  split at h
  · rename_i hc; subst h; simp only [encode, hc, hiByte_join, loByte_join]
  split at h
  · rename_i hc; subst h; simp only [encode, hc]
  split at h
  · rename_i hc; subst h; simp only [encode, hc]
  · subst h; exact encode_decodeCommandMiddle c op hi lo

theorem sends_decodeCommandEnd (c : Cfg) (op hi lo : Byte) : sends (decodeCommandEnd c op hi lo) = true := by
  generalize h : decodeCommandEnd c op hi lo = i
  simp only [decodeCommandEnd] at h
  repeat' (split at h)
  all_goals subst h; rfl

theorem sends_decodeCommandMiddle (c : Cfg) (op hi lo : Byte) : sends (decodeCommandMiddle c op hi lo) = true := by
  generalize h : decodeCommandMiddle c op hi lo = i
  simp only [decodeCommandMiddle] at h
  repeat' (split at h)
  all_goals subst h; first | rfl | exact sends_decodeCommandEnd c op hi lo

/-- R104: the row of an outbound frame is a command. -/
theorem sends_decodeCommand (c : Cfg) (op hi lo : Byte) : sends (decodeCommand c op hi lo) = true := by
  generalize h : decodeCommand c op hi lo = i
  simp only [decodeCommand] at h
  repeat' (split at h)
  all_goals subst h; first | rfl | exact sends_decodeCommandMiddle c op hi lo

/-- A command is an instance of its row in every framer state. -/
theorem sends_instance {i : Instr} (h : sends i = true) (c : Cfg) (v : FramerView) :
    i.wellFormed c = true ∧ i.rowApplies c v = true := by
  cases i <;> first | exact ⟨rfl, rfl⟩ | cases h

end Sys2Proof.Machine
end

