-- ==== Sys2Proof/Laws/Invariant.lean ====
section
/-!
SUPPORT. The invariant of the machine is kept by the shared operations: FEED, the transport's answers, the acceptance of each
request, and the resets.
-/

namespace Sys2Proof.Machine

/-- A write to an existing cell keeps the buffer's part of the invariant. -/
theorem BufferInv_write {s t : State} {a : Nat} {b : Byte} (h : BufferInv s) (ha : a < s.cfg.cap)
    (hbuf : t.buf = s.buf.write a b) (hcfg : t.cfg = s.cfg) : BufferInv t := by
  rw [BufferInv, hbuf, hcfg]
  exact ⟨Memory.write_wf h.1, Memory.write_within ha h.2⟩

/-- The part of the invariant that FEED can touch: the framer, the buffer and the last-response fields. -/
theorem feed_keeps_Inv {s s' : State} {b : Byte} (h : feed b s = .ok s') (hi : MachineInv s) : MachineInv s' := by
  have hframe := feed_frame h
  obtain ⟨hadm, ⟨hf1, hf2⟩, hb, hr, hseq, htx⟩ := hi
  have hcfg : s'.cfg = s.cfg := by rw [hframe]
  have hcap : 10 ≤ s.cfg.cap := hadm.1
  refine ⟨by rw [hcfg]; exact hadm, ?_, ?_, ?_, ?_, ?_⟩
  · rcases feed_cases h with ⟨-, -, -, rfl⟩ | ⟨-, -, rfl⟩ | ⟨-, -, -, -, rfl⟩ | ⟨-, -, -, -, rfl⟩ | ⟨hin, -, hc, hne, rfl⟩
    · exact ⟨by simp, by simp; omega⟩
    · exact ⟨hf1, hf2⟩
    · rw [dispatched_frame]; exact ⟨by simp [State.completed], by simp [State.completed]; omega⟩
    · exact ⟨by simp, by simp; omega⟩
    · exact ⟨by simp [hin], by simp; omega⟩
  · rcases feed_cases h with ⟨-, -, hc, rfl⟩ | ⟨-, -, rfl⟩ | ⟨-, -, hc, -, rfl⟩ | ⟨-, -, hc, -, rfl⟩ | ⟨-, -, hc, -, rfl⟩
    · exact BufferInv_write (b := sof) hb hc rfl rfl
    · exact hb
    · rw [dispatched_frame]; exact BufferInv_write (b := eof) hb hc rfl rfl
    · exact BufferInv_write hb hc rfl rfl
    · exact BufferInv_write hb hc rfl rfl
  · rcases feed_cases h with ⟨-, -, -, rfl⟩ | ⟨-, -, rfl⟩ | ⟨-, -, -, -, rfl⟩ | ⟨-, -, -, -, rfl⟩ | ⟨-, -, -, -, rfl⟩
    · exact hr
    · exact hr
    · rw [dispatched_frame]; intro hv; cases hv
    · exact hr
    · exact hr
  · rw [hframe]; exact hseq
  · rw [hframe]; exact htx

theorem feedAll_keeps_Inv {s s' : State} {bs : List Byte} (h : feedAll bs s = .ok s') (hi : MachineInv s) : MachineInv s' :=
  feedAll_keeps feed_keeps_Inv h hi

/-- FEED and FEED* never fault under the invariant. -/
theorem feed_total_of_Inv (b : Byte) {s : State} (hi : MachineInv s) : ∃ s', feed b s = .ok s' :=
  feed_total b hi.framer.2 (by have := hi.admissible.1; omega)

theorem feedAll_total_of_Inv (bs : List Byte) {s : State} (hi : MachineInv s) : ∃ s', feedAll bs s = .ok s' := by
  induction bs generalizing s with
  | nil => exact ⟨s, rfl⟩
  | cons b bs ih =>
    obtain ⟨t, ht⟩ := feed_total_of_Inv b hi
    obtain ⟨u, hu⟩ := ih (feed_keeps_Inv ht hi)
    exact ⟨u, by rw [feedAll_cons bs ht, hu]⟩

/-- The invariant does not speak of the environment, the results or the calls. -/
theorem Inv_of_same {s t : State} (hi : MachineInv s) (hcfg : t.cfg = s.cfg) (hfst : t.fstate = s.fstate) (hcur : t.cursor = s.cursor)
    (hbuf : t.buf = s.buf) (hv : t.lastRspValid = s.lastRspValid) (hc : t.lastRspCode = s.lastRspCode)
    (hd : t.lastRspData = s.lastRspData) (hseq : SequencerInv t) (htx : t.txLog = s.txLog) : MachineInv t := by
  obtain ⟨hadm, hf, hb, hr, -, hl⟩ := hi
  refine ⟨by rw [hcfg]; exact hadm, ?_, ?_, ?_, hseq, ?_⟩
  · simpa only [FramerInv, hcfg, hfst, hcur] using hf
  · simpa only [BufferInv, hcfg, hbuf] using hb
  · simpa only [ResponseInv, hv, hc, hd] using hr
  · simpa only [TxLogInv, htx] using hl

theorem Inv_replies {s : State} (as : List Answer) (hi : MachineInv s) : MachineInv { s with replies := as } :=
  Inv_of_same hi rfl rfl rfl rfl rfl rfl rfl hi.sequencer rfl

theorem Inv_takeEvent {s : State} (rest : List Event) (hi : MachineInv s) : MachineInv (takeEvent rest s) :=
  Inv_of_same hi rfl rfl rfl rfl rfl rfl rfl hi.sequencer rfl

/-- The resets of R39 establish the framer's and the response's part whatever they were. -/
theorem Inv_resetHandler {s t : State} (hi : MachineInv s) (hcfg : t.cfg = s.cfg) (hfst : t.fstate = .idle) (hcur : t.cursor = 0)
    (hbuf : t.buf = s.buf) (hc : t.lastRspCode = 0) (hd : t.lastRspData = 0) (hseq : SequencerInv t)
    (htx : t.txLog = s.txLog) : MachineInv t := by
  obtain ⟨hadm, -, hb, -, -, hl⟩ := hi
  refine ⟨by rw [hcfg]; exact hadm, ⟨by simp [hfst, hcur], ?_⟩, ?_, fun _ => ⟨hc, hd⟩, hseq, ?_⟩
  · have := hadm.1; rw [hcur, hcfg]; omega
  · simpa only [BufferInv, hcfg, hbuf] using hb
  · simpa only [TxLogInv, htx] using hl

/-- A SEND of INIT keeps the invariant where its position's part of it holds. -/
theorem Inv_initSend {position : Seq} {op : Byte} {data : Half} {s : State} (hi : MachineInv s)
    (hseq : s.cfg.hasSend = true → SequencerInv (initSend position op data s)) : MachineInv (initSend position op data s) := by
  by_cases hs : s.cfg.hasSend = true
  · have h := hseq hs
    simp only [initSend, hs, if_true] at h ⊢
    exact Inv_of_same hi rfl rfl rfl rfl rfl rfl rfl h rfl
  · simp only [initSend, if_neg hs]
    exact Inv_of_same hi rfl rfl rfl rfl rfl rfl rfl ⟨fun _ => .inr rfl, hi.sequencer.2.1, trivial⟩ rfl

theorem Inv_beginDelay {position : Seq} {ms : Half} {s : State} (hi : MachineInv s)
    (hseq : SequencerInv (beginDelay position ms s)) : MachineInv (beginDelay position ms s) :=
  Inv_of_same hi rfl rfl rfl rfl rfl rfl rfl hseq rfl

theorem Inv_finishDeinit {s : State} (hi : MachineInv s) : MachineInv (finishDeinit s) :=
  Inv_resetHandler hi rfl rfl rfl rfl rfl rfl ⟨fun _ => .inr rfl, fun h => (by cases h), trivial⟩ rfl

theorem Inv_emitLifecycle (r : Status) {s : State} (hi : MachineInv s) : MachineInv (emitLifecycle r s) :=
  Inv_of_same hi rfl rfl rfl rfl rfl rfl rfl ⟨fun _ => .inr rfl, hi.sequencer.2.1, trivial⟩ rfl

theorem Inv_emitCommand (r : Status) {s : State} (hi : MachineInv s) : MachineInv (emitCommand r s) :=
  Inv_of_same hi rfl rfl rfl rfl rfl rfl rfl hi.sequencer rfl

/-- R124: the bookkeeping of a SEND keeps every part of the invariant but the sequencer's, which the caller restores. -/
theorem Inv_commit {s t : State} (hi : MachineInv s)
    (ht : t = { commitSend s with calls := t.calls, hostLog := t.hostLog, pulses := t.pulses, seq := t.seq })
    (hseq : SequencerInv t) : MachineInv t := by
  obtain ⟨hadm, hf, hb, -, -, hl⟩ := hi
  refine ⟨by rw [ht]; exact hadm, by rw [ht]; exact hf, by rw [ht]; exact hb, fun _ => by rw [ht]; exact ⟨rfl, rfl⟩,
    hseq, ?_⟩
  intro f hfm
  rw [ht] at hfm
  simp only [commitSend_txLog, List.mem_append, List.mem_singleton] at hfm
  rcases hfm with hfm | rfl
  · exact hl f hfm
  · exact ⟨_, _, _, rfl⟩

theorem Inv_release {s : State} (r : Status) (hi : MachineInv s) : MachineInv (emitLifecycle r { s with txBusy := false }) :=
  Inv_of_same hi rfl rfl rfl rfl rfl rfl rfl ⟨fun h => (by cases h), hi.sequencer.2.1, trivial⟩ rfl

/-- R67: the end of a rejection keeps the invariant: no position of the sequencer awaits a handoff without the capability. -/
theorem Inv_endRejection {s : State} (hi : MachineInv s) : MachineInv (endRejection s) := by
  cases hs : s.cfg.hasSend with
  | true => rwa [endRejection_of_send hs]
  | false =>
    obtain ⟨h1, h2, h3⟩ := hi.sequencer
    have hb : (endRejection s).txBusy = false := by simp [hs]
    refine Inv_of_same hi rfl rfl rfl rfl rfl rfl rfl ⟨fun h => absurd (hb.symm.trans h) Bool.false_ne_true, h2, ?_⟩ rfl
    cases hq : s.seq <;> simp [hs, hq] at h1 h3 ⊢ <;> simp_all

/-- A handoff outstanding outside INIT is one of the host's. -/
theorem seq_of_busy {s : State} (hi : MachineInv s) (hb : s.txBusy = true) :
    s.seq = .idle ∨ s.seq = .initReset ∨ s.seq = .initSelect := by
  obtain ⟨-, -, h⟩ := hi.sequencer
  cases hs : s.seq <;> simp [hs, hb] at h ⊢

theorem Inv_answerHandoff (a : Answer) {s : State} (hi : MachineInv s) (hv : txValid s = true) :
    MachineInv (answerHandoff a s) := by
  obtain ⟨h1, h2, h3⟩ := hi.sequencer
  obtain ⟨hb, hsend⟩ := txValid_iff.mp hv
  rcases seq_of_busy hi hb with hs | hs | hs <;> cases a <;> simp only [answerHandoff, hs]
  · exact Inv_commit hi rfl ⟨fun h => (by cases h), h2, by simp [hs]⟩
  · exact Inv_of_same hi rfl rfl rfl rfl rfl rfl rfl ⟨fun h => (by cases h), h2, by simp⟩ rfl
  · simp only [hs] at h3
    exact Inv_commit hi rfl ⟨fun h => (by cases h), h2, rfl, h3.2.1, hsend, h3.2.2.1⟩
  · exact Inv_release _ hi
  · simp only [hs] at h3
    exact Inv_commit hi rfl ⟨fun h => (by cases h), h2, rfl, h3.2.1, hsend, h3.2.2.1⟩
  · exact Inv_release _ hi

/-- Every answer of the transport keeps the invariant. -/
theorem Inv_answer (a : Answer) {s : State} (hi : MachineInv s) : MachineInv (answer a s) := by
  cases hv : txValid s with
  | true => simpa only [answer, hv, if_pos] using Inv_answerHandoff a hi hv
  | false =>
    obtain ⟨h1, h2, h3⟩ := hi.sequencer
    simp only [answer, hv, Bool.false_eq_true, if_false]
    cases hs : s.seq <;> simp only [hs] at h3 ⊢
    · exact hi
    · obtain ⟨hb, -, hd, hse, hu⟩ := h3
      cases a
      · exact Inv_beginDelay hi ⟨fun _ => .inl hse, h2, hb, hd, hse, hu⟩
      · exact Inv_emitLifecycle _ hi
    · obtain ⟨-, hd, hse, hu⟩ := h3
      exact Inv_initSend hi fun h => by
        simp only [initSend, h, if_true]
        exact ⟨fun _ => .inl h, h2, rfl, hd, hu, rfl⟩
    · exact hi
    · obtain ⟨-, hd, hse, hu⟩ := h3
      exact Inv_initSend hi fun h => by
        simp only [initSend, h, if_true]
        exact ⟨fun _ => .inl h, h2, rfl, hd, hu, rfl⟩
    · exact hi
    · obtain ⟨-, hd, hse, -⟩ := h3
      exact Inv_of_same hi rfl rfl rfl rfl rfl rfl rfl ⟨fun _ => .inr rfl, fun _ => ⟨hd, hse⟩, trivial⟩ rfl
    · exact Inv_finishDeinit hi

theorem Inv_settleWith (as : List Answer) {s : State} (hi : MachineInv s) : MachineInv (settleWith as s) :=
  settleWith_keeps (fun a _ h => Inv_answer a h) (fun as _ h => Inv_replies as h) as hi

theorem Inv_settle {s : State} (hi : MachineInv s) : MachineInv (settle s) := Inv_settleWith _ hi

/-- R122, R125: an accepted command keeps the invariant. -/
theorem Inv_acceptSend (op hi' lo : Byte) {s : State} (hi : MachineInv s) (hready : cmdReady s = true) :
    MachineInv (acceptSend op hi' lo s) := by
  obtain ⟨hb, hq⟩ := cmdReady_iff.mp hready
  by_cases hs : s.cfg.hasSend = true
  · simp only [acceptSend, hs, if_true]
    exact Inv_of_same hi rfl rfl rfl rfl rfl rfl rfl ⟨fun _ => .inl hs, hi.sequencer.2.1, by simp [hq]⟩ rfl
  · simp only [acceptSend, if_neg hs]
    exact Inv_emitCommand _ hi

/-- R67: a command accepted on the port keeps the invariant, with the send capability and without it. -/
theorem Inv_acceptCommand (op hi' lo : Byte) {s : State} (hi : MachineInv s) (hready : cmdReady s = true) :
    MachineInv (acceptCommand op hi' lo s) := by
  obtain ⟨hb, hq⟩ := cmdReady_iff.mp hready
  by_cases hs : s.cfg.hasSend = true
  · have h := Inv_acceptSend op hi' lo hi hready
    simpa only [acceptCommand, acceptSend, hs, if_true] using h
  · simp only [acceptCommand, if_neg hs]
    exact Inv_of_same hi rfl rfl rfl rfl rfl rfl rfl ⟨fun _ => .inr hq, hi.sequencer.2.1, by simp [hq]⟩ rfl

/-- R202 to R205: an accepted INIT keeps the invariant. -/
theorem Inv_acceptInit {s : State} (hi : MachineInv s) (hready : cmdReady s = true)
    (hu : s.cfg.hasDelay = true → s.cfg.hasSend = true → s.hstate = .uninitialized) : MachineInv (acceptInit s) := by
  obtain ⟨hb, hq⟩ := cmdReady_iff.mp hready
  simp only [acceptInit]
  split
  · rename_i hc
    have hu := hu hc.1 hc.2
    have h2 := hi.sequencer.2.1
    split
    · rename_i hh
      exact Inv_resetHandler hi rfl rfl rfl rfl rfl rfl ⟨fun _ => .inl hc.2, h2, hb, hh, hc.1, hc.2, hu⟩ rfl
    · exact Inv_resetHandler hi rfl rfl rfl rfl rfl rfl ⟨fun _ => .inl hc.2, h2, hb, hc.1, hc.2, hu⟩ rfl
  · exact Inv_emitLifecycle _ hi

/-- R207: an accepted DEINIT keeps the invariant. -/
theorem Inv_acceptDeinit {s : State} (hi : MachineInv s) (hready : cmdReady s = true) : MachineInv (acceptDeinit s) := by
  obtain ⟨hb, hq⟩ := cmdReady_iff.mp hready
  simp only [acceptDeinit]
  split
  · rename_i hh
    exact Inv_of_same hi rfl rfl rfl rfl rfl rfl rfl ⟨fun h => absurd (hb.symm.trans h) Bool.false_ne_true, hi.sequencer.2.1, hb, hh⟩ rfl
  · exact Inv_finishDeinit hi

/-- R66, R250: hardware reset establishes the invariant but for what it leaves: the configuration and the TX log. -/
theorem Inv_hardwareReset {s : State} (hi : MachineInv s) : MachineInv (hardwareReset s) :=
  ⟨hi.admissible, ⟨iff_of_true rfl rfl, Nat.lt_of_lt_of_le (show 0 < 10 by decide) hi.admissible.1⟩, ⟨rfl, rfl⟩, fun _ => ⟨rfl, rfl⟩,
    ⟨fun h => (by cases h), fun h => (by cases h), trivial⟩, hi.txLog⟩

end Sys2Proof.Machine
end

