-- ==== Sys2Proof/Laws/PerInstr.lean ====
section
/-!
SUPPORT. Statements for all instructions, one lemma per constructor. Family RowFormat: every instruction's word has the format
its row of the opcode table names (R90, R91, R95, R98, R107), under every configuration.
-/

namespace Sys2Proof.Laws.RowFormat

open Sys2Proof.Machine

/-- The formats of the opcode table. -/
inductive Format where
  | tx8
  | rx10
  | byte
  | cmd24
  | none
deriving DecidableEq, Repr

/-- The format that the instruction's row names. -/
def format : Instr → Format
  | .send _ _ _ | .next | .prev | .playIndex _ | .volUp | .volDown | .volSet _ | .selectDevice _ | .reset | .play
  | .pause | .playFolderFile _ _ | .stop | .queryStatus | .queryVolume | .queryTrack => .tx8
  | .rspMediaInserted _ | .rspPlayCompleted _ | .rspError _ | .rspAck _ | .rspStatus _ | .rspVolume _
  | .rspTrackCount _ | .rspFolder _ | .rspFolderTrackCount _ | .rspFolderFile _ | .rspUnrecognized _ _ => .rx10
  | .byteSofIdle | .byteStrayIdle _ | .byteEofInframe | .bytePayloadInframe _ | .bytePayloadOverflow _ => .byte
  | .encode _ _ _ => .cmd24
  | .init | .deinit => .none

/-- A word of the format: its length, and the two markers of a frame. -/
def Shaped : Format → Request → Prop
  | .tx8, .bytes bs => bs.length = 8 ∧ bs.head? = some sof ∧ bs.getLast? = some eof
  | .rx10, .bytes bs => bs.length = 10 ∧ bs.head? = some sof ∧ bs.getLast? = some eof
  | .byte, .bytes bs => bs.length = 1
  | .cmd24, .bytes bs => bs.length = 3
  | .none, r => r = .initReq ∨ r = .deinitReq
  | _, _ => False

/-- The instruction's word has its row's format. -/
def Statement (i : Instr) : Prop := ∀ c : Cfg, Shaped (format i) (Sys2Proof.encode c i)

theorem send (op hi lo : Byte) : Statement (.send op hi lo) := fun _ => ⟨rfl, rfl, rfl⟩
theorem next : Statement .next := fun _ => ⟨rfl, rfl, rfl⟩
theorem prev : Statement .prev := fun _ => ⟨rfl, rfl, rfl⟩
theorem playIndex (n : Half) : Statement (.playIndex n) := fun _ => ⟨rfl, rfl, rfl⟩
theorem volUp : Statement .volUp := fun _ => ⟨rfl, rfl, rfl⟩
theorem volDown : Statement .volDown := fun _ => ⟨rfl, rfl, rfl⟩
theorem volSet (v : Byte) : Statement (.volSet v) := fun _ => ⟨rfl, rfl, rfl⟩
theorem selectDevice (d : Half) : Statement (.selectDevice d) := fun _ => ⟨rfl, rfl, rfl⟩
theorem reset : Statement .reset := fun _ => ⟨rfl, rfl, rfl⟩
theorem play : Statement .play := fun _ => ⟨rfl, rfl, rfl⟩
theorem pause : Statement .pause := fun _ => ⟨rfl, rfl, rfl⟩
theorem playFolderFile (f n : Byte) : Statement (.playFolderFile f n) := fun _ => ⟨rfl, rfl, rfl⟩
theorem stop : Statement .stop := fun _ => ⟨rfl, rfl, rfl⟩
theorem queryStatus : Statement .queryStatus := fun _ => ⟨rfl, rfl, rfl⟩
theorem queryVolume : Statement .queryVolume := fun _ => ⟨rfl, rfl, rfl⟩
theorem queryTrack : Statement .queryTrack := fun _ => ⟨rfl, rfl, rfl⟩
theorem rspMediaInserted (f : RxFields) : Statement (.rspMediaInserted f) := fun _ => ⟨rfl, rfl, rfl⟩
theorem rspPlayCompleted (f : RxFields) : Statement (.rspPlayCompleted f) := fun _ => ⟨rfl, rfl, rfl⟩
theorem rspError (f : RxFields) : Statement (.rspError f) := fun _ => ⟨rfl, rfl, rfl⟩
theorem rspAck (f : RxFields) : Statement (.rspAck f) := fun _ => ⟨rfl, rfl, rfl⟩
theorem rspStatus (f : RxFields) : Statement (.rspStatus f) := fun _ => ⟨rfl, rfl, rfl⟩
theorem rspVolume (f : RxFields) : Statement (.rspVolume f) := fun _ => ⟨rfl, rfl, rfl⟩
theorem rspTrackCount (f : RxFields) : Statement (.rspTrackCount f) := fun _ => ⟨rfl, rfl, rfl⟩
theorem rspFolder (f : RxFields) : Statement (.rspFolder f) := fun _ => ⟨rfl, rfl, rfl⟩
theorem rspFolderTrackCount (f : RxFields) : Statement (.rspFolderTrackCount f) := fun _ => ⟨rfl, rfl, rfl⟩
theorem rspFolderFile (f : RxFields) : Statement (.rspFolderFile f) := fun _ => ⟨rfl, rfl, rfl⟩
theorem rspUnrecognized (code : Byte) (f : RxFields) : Statement (.rspUnrecognized code f) := fun _ => ⟨rfl, rfl, rfl⟩
theorem byteSofIdle : Statement .byteSofIdle := fun _ => rfl
theorem byteStrayIdle (b : Byte) : Statement (.byteStrayIdle b) := fun _ => rfl
theorem byteEofInframe : Statement .byteEofInframe := fun _ => rfl
theorem bytePayloadInframe (b : Byte) : Statement (.bytePayloadInframe b) := fun _ => rfl
theorem bytePayloadOverflow (b : Byte) : Statement (.bytePayloadOverflow b) := fun _ => rfl
theorem encode (op hi lo : Byte) : Statement (.encode op hi lo) := fun _ => rfl
theorem init : Statement .init := fun _ => .inl rfl
theorem deinit : Statement .deinit := fun _ => .inr rfl

end Sys2Proof.Laws.RowFormat
end

