-- ==== Sys2Proof/Laws/Ports.lean ====
section
/-!
SUPPORT. What one clock edge can do, said once, and what the output pins show: the width of the `cursor` output, the status
outputs, and the result pulses of FEED.
-/

namespace Sys2Proof.Machine

/-! ### The `cursor` output (R31) -/

theorem cursorBits_spec {cap : Nat} (h : 2 ≤ cap) : cap ≤ 2 ^ cursorBits cap ∧ 2 ^ (cursorBits cap - 1) < cap := by
  have h1 : cap - 1 < 2 ^ (Nat.log2 (cap - 1) + 1) := Nat.lt_log2_self
  have h2 : 2 ^ Nat.log2 (cap - 1) ≤ cap - 1 := Nat.log2_self_le (by omega)
  simp only [cursorBits, if_neg (show ¬ cap ≤ 1 by omega), Nat.add_sub_cancel]
  omega

theorem lt_two_pow_cursorBits {c cap : Nat} (h : c < cap) : c < 2 ^ cursorBits cap := by
  by_cases h2 : 2 ≤ cap
  · have := (cursorBits_spec h2).1
    omega
  · have hc : c = 0 := by omega
    subst hc
    exact Nat.two_pow_pos _

theorem portOut_cursor_toNat {s : State} (rst : Bool) (h : s.cursor < s.cfg.cap) : (portOut s rst).cursor.toNat = s.cursor := by
  simp only [portOut, BitVec.toNat_ofNat]
  exact Nat.mod_eq_of_lt (lt_two_pow_cursorBits h)

/-- R71: in every cycle, under `rst` too, the status outputs are the registers. -/
theorem statusOutputs_self (s : State) (rst : Bool) : StatusOutputs s (portOut s rst) :=
  ⟨rfl, rfl, rfl, rfl, rfl, rfl, rfl, rfl, rfl, by cases h : s.hstate <;> simp [portOut, h, hstateCode],
    by cases h : s.fstate <;> simp [portOut, h, fstateCode], portOut_cursor_toNat rst⟩

/-! ### The output pulses under `rst` (R66) -/

@[simp] theorem shownPulses_rst (s : State) : shownPulses true s = Pulses.none := rfl
@[simp] theorem shownPulses_run (s : State) : shownPulses false s = s.pulses := rfl

/-- A cycle in which no pulse shows has no pulse on its pins. -/
theorem noPulse_of_shown {s : State} {rst : Bool} (h : shownPulses rst s = Pulses.none) : NoPulse (portOut s rst) := by
  simp only [NoPulse, portOut, h]
  exact ⟨rfl, rfl, rfl, rfl, rfl, rfl, rfl, rfl⟩

/-- No pulse shows in a cycle with `rst = 1`, whatever the step before registered. -/
theorem noPulse_rst (s : State) : NoPulse (portOut s true) := noPulse_of_shown (shownPulses_rst s)

/-- Nor in the cycle after its edge. -/
theorem noPulse_hardwareReset (s : State) (rst : Bool) : NoPulse (portOut (hardwareReset s) rst) :=
  noPulse_of_shown (by cases rst <;> rfl)

/-! ### The clock edge (R66) -/

/-- All that one edge can do: hardware reset; else a received byte, if there is one, and then one of: the requests of a ready
block, the answer of the outstanding call, the end of the cycle. -/
theorem clockEdge_cases {p : PortIn} {s t : State} (h : clockEdge p s = .ok t) :
    (p.rst = true ∧ t = hardwareReset s) ∨
    (p.rst = false ∧ ∃ u, (if p.rxValid then feed p.rxByte s else .ok s) = .ok u ∧
      ((cmdReady u = true ∧ t = acceptPins p u) ∨
       (cmdReady u = false ∧ ∃ a, answerPins p u = some a ∧ t = answer a u) ∨
       (cmdReady u = false ∧ answerPins p u = none ∧ t = endRejection u))) := by
  simp only [clockEdge] at h
  split at h
  · cases h
    exact .inl ⟨‹_›, rfl⟩
  · rename_i hr
    refine .inr ⟨by simpa using hr, ?_⟩
    split at h
    · cases h
    · rename_i u hu
      refine ⟨u, hu, ?_⟩
      split at h
      · cases h
        exact .inl ⟨‹_›, rfl⟩
      · rename_i hc
        have hc : cmdReady u = false := by simpa using hc
        split at h
        · cases h
          exact .inr (.inl ⟨hc, _, ‹_›, rfl⟩)
        · cases h
          exact .inr (.inr ⟨hc, ‹_›, rfl⟩)

/-- An edge without a received byte, in a block that waits and gets no answer. -/
theorem clockEdge_waits {p : PortIn} {s : State} (hr : p.rst = false) (hx : p.rxValid = false) (hc : cmdReady s = false)
    (ha : answerPins p s = none) : clockEdge p s = .ok (endRejection s) := by
  simp only [clockEdge, hr, hx, hc, ha, Bool.false_eq_true, if_false]

/-- An edge without a received byte, in a block that waits and gets its answer. -/
theorem clockEdge_answers {p : PortIn} {s : State} {a : Answer} (hr : p.rst = false) (hx : p.rxValid = false)
    (hc : cmdReady s = false) (ha : answerPins p s = some a) : clockEdge p s = .ok (answer a s) := by
  simp only [clockEdge, hr, hx, hc, ha, Bool.false_eq_true, if_false]

/-- An edge without a received byte, in a ready block. -/
theorem clockEdge_accepts {p : PortIn} {s : State} (hr : p.rst = false) (hx : p.rxValid = false) (hc : cmdReady s = true) :
    clockEdge p s = .ok (acceptPins p s) := by
  simp only [clockEdge, hr, hx, hc, Bool.false_eq_true, if_false, if_true]

/-! ### The result pulses of FEED (R70) -/

/-- An answer of the transport is no result of FEED. -/
theorem answer_feedDone (a : Answer) (s : State) : (answer a s).pulses.feedDone = s.pulses.feedDone := by
  simp only [answer, answerHandoff, initSend, finishDeinit]
  repeat' split
  all_goals rfl

/-- Nor is a command or a request. -/
theorem acceptPins_feedDone (p : PortIn) (s : State) : (acceptPins p s).pulses.feedDone = s.pulses.feedDone := by
  simp only [acceptPins, acceptCommand, acceptDeinit, acceptInit, finishDeinit]
  repeat' split
  all_goals rfl

end Sys2Proof.Machine
end

