-- ==== Sys2Proof/Tests/Slice0.lean ====
section
/-!
SUPPORT. Tests of the model, and for every statement that has hypotheses a state and operands that meet them. Expected results
come from `95_test_vectors.md` (its ids S, V, P) and from the encodings of `30_encoding.md`, none from the model.
-/

namespace Sys2Proof.Tests

open Sys2Proof Sys2Proof.Machine

/-- What a projection reads in the next state. -/
def reads {β : Type} (f : State → β) : Host.Outcome State Fault Refusal → Option β
  | .next t => some (f t)
  | _ => none

/-- The status fields and the last response. -/
structure Fields where
  volume : Half
  track : Half
  status : Half
  media : Bool
  code : Byte
  data : Half
  valid : Bool
deriving DecidableEq, Repr

def fields (s : State) : Fields :=
  ⟨s.volume, s.track, s.status, s.media, s.lastRspCode, s.lastRspData, s.lastRspValid⟩

/-- The record of the last command and the frames handed off. -/
structure CommandRecord where
  op : Byte
  data : Half
  rspValid : Bool
  txLog : List Frame
deriving DecidableEq, Repr

def command (s : State) : CommandRecord := ⟨s.lastCmdOp, s.lastCmdData, s.lastRspValid, s.txLog⟩

/-- The framer. -/
def framer (s : State) : FState × Nat × List FeedResult := (s.fstate, s.cursor, s.feedLog)

/-- Reset state, with these answers standing ready. -/
def answering (as : List Answer) : State := { State.reset with replies := as }

/-- A frame in progress at a cursor, with these buffer cells. -/
def inFrame (cursor : Nat) (buf : Memory) : State := { State.reset with fstate := .inFrame, cursor := cursor, buf := buf }

/-- Section 2.3 of the vectors: volume 1, track 2, status 3. -/
def parserStart : State := { State.reset with volume := 1, track := 2, status := 3 }

/-- The bytes of `7E FF 06 cc 00 01 02 AA 55 EF` other than the markers and the code. -/
def parserFields : RxFields := ⟨0xFF, 0x06, 0x00, 0x01, 0x02, 0xAA, 0x55⟩

/-! ### WellFormed: an ill-formed term for each check -/

theorem test_unrecognised_code_of_the_set_is_ill_formed :
    (Instr.rspUnrecognized 0x43 parserFields).wellFormed Config.default = false ∧
      (Instr.rspUnrecognized 0x99 parserFields).wellFormed Config.default = true := by decide

theorem test_stray_start_marker_is_ill_formed :
    (Instr.byteStrayIdle 0x7E).wellFormed Config.default = false ∧
      (Instr.byteStrayIdle 0xEF).wellFormed Config.default = true := by decide

theorem test_payload_end_marker_is_ill_formed :
    (Instr.bytePayloadInframe 0xEF).wellFormed Config.default = false ∧
      (Instr.bytePayloadInframe 0x7E).wellFormed Config.default = true := by decide

theorem test_overflow_end_marker_is_ill_formed :
    (Instr.bytePayloadOverflow 0xEF).wellFormed Config.default = false ∧
      (Instr.bytePayloadOverflow 0x0A).wellFormed Config.default = true := by decide

theorem test_rows_apply_by_framer_state :
    Instr.byteSofIdle.rowApplies Config.default ⟨.inFrame, 3⟩ = false ∧
      (Instr.bytePayloadInframe 1).rowApplies Config.default ⟨.inFrame, 9⟩ = false ∧
      (Instr.bytePayloadOverflow 1).rowApplies Config.default ⟨.inFrame, 9⟩ = true ∧
      Instr.byteEofInframe.rowApplies Config.default ⟨.inFrame, 9⟩ = true := by decide

/-! ### Decode: words written out from the encodings -/

theorem test_decode_named_commands :
    decodeTableWord 64 0x7EFF0601010000EF = some .next ∧ decodeTableWord 64 0x7EFF0602010000EF = some .prev ∧
      decodeTableWord 64 0x7EFF0604010000EF = some .volUp ∧ decodeTableWord 64 0x7EFF0605010000EF = some .volDown ∧
      decodeTableWord 64 0x7EFF060C010000EF = some .reset ∧ decodeTableWord 64 0x7EFF060D010000EF = some .play ∧
      decodeTableWord 64 0x7EFF060E010000EF = some .pause ∧ decodeTableWord 64 0x7EFF0616010000EF = some .stop ∧
      decodeTableWord 64 0x7EFF0642010000EF = some .queryStatus ∧
      decodeTableWord 64 0x7EFF0643010000EF = some .queryVolume ∧
      decodeTableWord 64 0x7EFF0648010000EF = some .queryTrack := by decide

theorem test_decode_commands_with_operands :
    decodeTableWord 64 0x7EFF06030101EFEF = some (.playIndex 0x01EF) ∧
      decodeTableWord 64 0x7EFF060601001EEF = some (.volSet 30) ∧
      decodeTableWord 64 0x7EFF0609010002EF = some (.selectDevice 2) ∧
      decodeTableWord 64 0x7EFF060F010207EF = some (.playFolderFile 2 7) ∧
      decodeTableWord 64 0x7EFF067E01EF7EEF = some (.send 0x7E 0xEF 0x7E) ∧
      decodeTableWord 64 0x7EFF060601001FEF = some (.send 0x06 0x00 0x1F) := by decide

theorem test_decode_responses :
    decodeTableWord 80 0x7EFF063A000102AA55EF = some (.rspMediaInserted parserFields) ∧
      decodeTableWord 80 0x7EFF063D000102AA55EF = some (.rspPlayCompleted parserFields) ∧
      decodeTableWord 80 0x7EFF0640000102AA55EF = some (.rspError parserFields) ∧
      decodeTableWord 80 0x7EFF0641000102AA55EF = some (.rspAck parserFields) ∧
      decodeTableWord 80 0x7EFF0642000102AA55EF = some (.rspStatus parserFields) ∧
      decodeTableWord 80 0x7EFF0643000102AA55EF = some (.rspVolume parserFields) := by decide

theorem test_decode_reports :
    decodeTableWord 80 0x7EFF0648000102AA55EF = some (.rspTrackCount parserFields) ∧
      decodeTableWord 80 0x7EFF064F000102AA55EF = some (.rspFolder parserFields) ∧
      decodeTableWord 80 0x7EFF064E000102AA55EF = some (.rspFolderTrackCount parserFields) ∧
      decodeTableWord 80 0x7EFF064C000102AA55EF = some (.rspFolderFile parserFields) ∧
      decodeTableWord 80 0x7EFF0699000102AA55EF = some (.rspUnrecognized 0x99 parserFields) := by decide

theorem test_decode_bytes_by_framer_state :
    decode Config.default ⟨.idle, 0⟩ (.bytes [0x7E]) = .ok .byteSofIdle ∧
      decode Config.default ⟨.idle, 0⟩ (.bytes [0xEF]) = .ok (.byteStrayIdle 0xEF) ∧
      decode Config.default ⟨.inFrame, 9⟩ (.bytes [0xEF]) = .ok .byteEofInframe ∧
      decode Config.default ⟨.inFrame, 8⟩ (.bytes [0x7E]) = .ok (.bytePayloadInframe 0x7E) ∧
      decode Config.default ⟨.inFrame, 9⟩ (.bytes [0x09]) = .ok (.bytePayloadOverflow 0x09) := by decide

/-- R95: `op` in bits 23 to 16, `hi` in 15 to 8, `lo` in 7 to 0; the two requests have no word. -/
theorem test_decode_encode_and_requests :
    decodeTableWord 24 0x061E2D = some (.encode 0x06 0x1E 0x2D) ∧
      decode Config.default ⟨.idle, 0⟩ .initReq = .ok .init ∧ decode Config.default ⟨.idle, 0⟩ .deinitReq = .ok .deinit := by
  decide

/-- R90, R91: wrong version, feedback or end marker; no format of seven bytes. -/
theorem test_decode_refuses :
    decode Config.default ⟨.idle, 0⟩ (.bytes [0x7E, 0xFE, 6, 1, 1, 0, 0, 0xEF]) = .error .txConstants ∧
      decode Config.default ⟨.idle, 0⟩ (.bytes [0x7E, 0xFF, 6, 1, 0, 0, 0, 0xEF]) = .error .txConstants ∧
      decode Config.default ⟨.idle, 0⟩ (.bytes [0x7E, 0xFF, 6, 0x43, 0, 0, 5, 0, 0, 0xEE]) = .error .rxMarkers ∧
      decode Config.default ⟨.idle, 0⟩ (.bytes [1, 2, 3, 4, 5, 6, 7]) = .error (.noFormat 7) := by decide

/-! ### Commands (vectors V-E1 to V-E13, S2, S7) -/

theorem test_send : reads command (exec (.send 0xEF 0x7E 0xEF) (answering [.ok])) =
    some ⟨0xEF, 0x7EEF, false, [[0x7E, 0xFF, 0x06, 0xEF, 0x01, 0x7E, 0xEF, 0xEF]]⟩ := by decide
theorem test_send_failed : reads command (exec (.send 0x43 0 0) (answering [.fail])) = some ⟨0, 0, false, []⟩ := by decide
theorem test_next : reads command (exec .next (answering [.ok])) =
    some ⟨0x01, 0, false, [[0x7E, 0xFF, 0x06, 0x01, 0x01, 0, 0, 0xEF]]⟩ := by decide
theorem test_prev : reads command (exec .prev (answering [.ok])) =
    some ⟨0x02, 0, false, [[0x7E, 0xFF, 0x06, 0x02, 0x01, 0, 0, 0xEF]]⟩ := by decide
theorem test_playIndex : reads command (exec (.playIndex 0x01EF) (answering [.ok])) =
    some ⟨0x03, 0x01EF, false, [[0x7E, 0xFF, 0x06, 0x03, 0x01, 0x01, 0xEF, 0xEF]]⟩ := by decide
theorem test_volUp : reads command (exec .volUp (answering [.ok])) =
    some ⟨0x04, 0, false, [[0x7E, 0xFF, 0x06, 0x04, 0x01, 0, 0, 0xEF]]⟩ := by decide
theorem test_volDown : reads command (exec .volDown (answering [.ok])) =
    some ⟨0x05, 0, false, [[0x7E, 0xFF, 0x06, 0x05, 0x01, 0, 0, 0xEF]]⟩ := by decide
theorem test_volSet_45 : reads command (exec (.volSet 45) (answering [.ok])) =
    some ⟨0x06, 0x001E, false, [[0x7E, 0xFF, 0x06, 0x06, 0x01, 0, 0x1E, 0xEF]]⟩ := by decide
theorem test_volSet_boundaries :
    reads State.lastCmdData (exec (.volSet 29) (answering [.ok])) = some 29 ∧
      reads State.lastCmdData (exec (.volSet 30) (answering [.ok])) = some 30 ∧
      reads State.lastCmdData (exec (.volSet 31) (answering [.ok])) = some 30 ∧
      reads State.lastCmdData (exec (.volSet 255) (answering [.ok])) = some 30 := by decide
theorem test_selectDevice : reads command (exec (.selectDevice 0x0102) (answering [.ok])) =
    some ⟨0x09, 0x0102, false, [[0x7E, 0xFF, 0x06, 0x09, 0x01, 0x01, 0x02, 0xEF]]⟩ := by decide
theorem test_reset : reads command (exec .reset (answering [.ok])) =
    some ⟨0x0C, 0, false, [[0x7E, 0xFF, 0x06, 0x0C, 0x01, 0, 0, 0xEF]]⟩ := by decide
theorem test_play : reads command (exec .play (answering [.ok])) =
    some ⟨0x0D, 0, false, [[0x7E, 0xFF, 0x06, 0x0D, 0x01, 0, 0, 0xEF]]⟩ := by decide
theorem test_pause : reads command (exec .pause (answering [.ok])) =
    some ⟨0x0E, 0, false, [[0x7E, 0xFF, 0x06, 0x0E, 0x01, 0, 0, 0xEF]]⟩ := by decide
theorem test_playFolderFile : reads command (exec (.playFolderFile 2 7) (answering [.ok])) =
    some ⟨0x0F, 0x0207, false, [[0x7E, 0xFF, 0x06, 0x0F, 0x01, 0x02, 0x07, 0xEF]]⟩ := by decide
theorem test_stop : reads command (exec .stop (answering [.ok])) =
    some ⟨0x16, 0, false, [[0x7E, 0xFF, 0x06, 0x16, 0x01, 0, 0, 0xEF]]⟩ := by decide
theorem test_queryStatus : reads command (exec .queryStatus (answering [.ok])) =
    some ⟨0x42, 0, false, [[0x7E, 0xFF, 0x06, 0x42, 0x01, 0, 0, 0xEF]]⟩ := by decide
theorem test_queryVolume : reads command (exec .queryVolume (answering [.ok])) =
    some ⟨0x43, 0, false, [[0x7E, 0xFF, 0x06, 0x43, 0x01, 0, 0, 0xEF]]⟩ := by decide
theorem test_queryTrack : reads command (exec .queryTrack (answering [.ok])) =
    some ⟨0x48, 0, false, [[0x7E, 0xFF, 0x06, 0x48, 0x01, 0, 0, 0xEF]]⟩ := by decide
/-- V-E5, R125. -/
theorem test_command_without_capability :
    reads State.hostLog (exec .play { State.reset with cfg := { Config.default with hasSend := false } }) =
      some [.status .invalidParameter] := by decide
/-- R120, S1. -/
theorem test_encode : reads State.hostLog (exec (.encode 0x43 0x12 0x34) State.reset) =
    some [.frame [0x7E, 0xFF, 0x06, 0x43, 0x01, 0x12, 0x34, 0xEF]] := by decide

/-! ### Framer (vectors V-F1 to V-F17) -/

theorem test_start : reads framer (exec .byteSofIdle State.reset) = some (.inFrame, 1, [.cont]) := by decide
theorem test_start_cell : reads State.buf (exec .byteSofIdle State.reset) = some [(0, 0x7E)] := by decide
theorem test_stray : reads framer (exec (.byteStrayIdle 0xEF) State.reset) = some (.idle, 0, [.cont]) := by decide
theorem test_payload_sof : reads framer (exec (.bytePayloadInframe 0x7E) (inFrame 1 [(0, 0x7E)])) =
    some (.inFrame, 2, [.cont]) := by decide
theorem test_payload_cell : reads State.buf (exec (.bytePayloadInframe 0x7E) (inFrame 1 [(0, 0x7E)])) =
    some [(0, 0x7E), (1, 0x7E)] := by decide
theorem test_overflow : reads framer (exec (.bytePayloadOverflow 0x09) (inFrame 9 [(0, 0x7E)])) =
    some (.idle, 0, [.cont]) := by decide
theorem test_overflow_cell :
    reads (fun t => (t.buf, t.lastRspValid)) (exec (.bytePayloadOverflow 0x09) (inFrame 9 [(0, 0x7E)])) =
      some ([(0, 0x7E), (9, 0x09)], false) := by decide
/-- V-F3: `7E EF`. -/
theorem test_shortest_frame : reads (fun t => (framer t, fields t)) (exec .byteEofInframe (inFrame 1 [(0, 0x7E)])) =
    some ((.idle, 0, [.frameError]), ⟨0, 0, 0, false, 0, 0, true⟩) := by decide
/-- V-F6: the end marker in the last cell wins over overflow. -/
theorem test_end_marker_in_last_cell :
    reads (fun t => (framer t, fields t)) (exec .byteEofInframe (inFrame 9 [(0, 0x7E), (3, 0x03), (5, 0x05), (6, 0x06)])) =
      some ((.idle, 0, [.frameError]), ⟨0, 0, 0, false, 0x03, 0x0506, true⟩) := by decide

/-! ### Parser (vectors V-P1 to V-P17) -/

theorem test_rspMediaInserted : reads fields (exec (.rspMediaInserted parserFields) parserStart) =
    some ⟨1, 2, 3, true, 0x3A, 0x0102, true⟩ := by decide
theorem test_rspPlayCompleted : reads fields (exec (.rspPlayCompleted parserFields) parserStart) =
    some ⟨1, 0, 3, false, 0x3D, 0x0102, true⟩ := by decide
theorem test_rspError : reads fields (exec (.rspError parserFields) parserStart) =
    some ⟨1, 2, 3, false, 0x40, 0x0102, true⟩ := by decide
theorem test_rspAck : reads fields (exec (.rspAck parserFields) parserStart) =
    some ⟨1, 2, 3, false, 0x41, 0x0102, true⟩ := by decide
/-- V-P14: data 0x0100 is not "stopped". -/
theorem test_rspStatus : reads fields (exec (.rspStatus ⟨0xFF, 6, 0, 1, 0, 0, 0⟩) { State.reset with track := 7, status := 1 }) =
    some ⟨0, 7, 0x0100, false, 0x42, 0x0100, true⟩ := by decide
/-- V-P15: data 0 clears the track. -/
theorem test_rspStatus_stopped :
    reads fields (exec (.rspStatus ⟨0xFF, 6, 0, 0, 0, 0, 0⟩) { State.reset with track := 7, status := 1 }) =
      some ⟨0, 0, 0, false, 0x42, 0, true⟩ := by decide
theorem test_rspVolume : reads fields (exec (.rspVolume parserFields) parserStart) =
    some ⟨0x0102, 2, 3, false, 0x43, 0x0102, true⟩ := by decide
/-- V-F14: 0xEF as data low ends the frame at length 7; the three bytes after it are stray. -/
theorem test_rspVolume_end_marker_in_data :
    reads (fun t => (framer t, fields t)) (exec (.rspVolume ⟨0xFF, 6, 0, 0, 0xEF, 0, 0⟩) State.reset) =
      some ((.idle, 0, [.cont, .cont, .cont, .cont, .cont, .cont, .frameReady, .cont, .cont, .cont]),
        ⟨0x00EF, 0, 0, false, 0x43, 0x00EF, true⟩) := by decide
theorem test_rspTrackCount : reads fields (exec (.rspTrackCount parserFields) parserStart) =
    some ⟨1, 0x0102, 3, false, 0x48, 0x0102, true⟩ := by decide
/-- V-F15: 0xEF as data high: the low byte is a stale cell. -/
theorem test_rspTrackCount_stale_low :
    reads State.track (exec (.rspTrackCount ⟨0xFF, 6, 0, 0xEF, 0, 0, 0⟩) { State.reset with buf := [(0, 0x7E), (6, 0x34)] }) =
      some 0xEF34 := by decide
theorem test_rspFolder : reads fields (exec (.rspFolder parserFields) parserStart) =
    some ⟨1, 2, 3, false, 0x4F, 0x0102, true⟩ := by decide
theorem test_rspFolderTrackCount : reads fields (exec (.rspFolderTrackCount parserFields) parserStart) =
    some ⟨1, 2, 3, false, 0x4E, 0x0102, true⟩ := by decide
theorem test_rspFolderFile : reads fields (exec (.rspFolderFile parserFields) parserStart) =
    some ⟨1, 2, 3, false, 0x4C, 0x0102, true⟩ := by decide
theorem test_rspUnrecognized : reads fields (exec (.rspUnrecognized 0x99 parserFields) parserStart) =
    some ⟨1, 2, 3, false, 0x99, 0x0102, true⟩ := by decide
theorem test_rspUnrecognized_results : reads State.feedLog (exec (.rspUnrecognized 0x99 parserFields) parserStart) =
    some [.cont, .cont, .cont, .cont, .cont, .cont, .cont, .cont, .cont, .frameError] := by decide

/-! ### Lifecycle (vectors V-L1 to V-L9) -/

theorem test_init : reads (fun t => (t.hstate, command t)) (exec .init (answering [.ok, .fail, .ok, .ok, .ok, .fail])) =
    some (.ready, ⟨0x09, 0x0002, false,
      [[0x7E, 0xFF, 6, 0x0C, 1, 0, 0, 0xEF], [0x7E, 0xFF, 6, 0x09, 1, 0, 2, 0xEF]]⟩) := by decide
theorem test_init_second_send_fails :
    reads (fun t => (t.hstate, command t)) (exec .init (answering [.ok, .ok, .ok, .ok, .fail])) =
      some (.uninitialized, ⟨0x0C, 0, false, [[0x7E, 0xFF, 6, 0x0C, 1, 0, 0, 0xEF]]⟩) := by decide
/-- V-L8: Device State, framer and lifecycle are reset, the buffer is not, and the hook's failure is ignored. -/
theorem test_deinit :
    reads (fun t => (t.volume, t.cursor, t.hstate, t.buf))
        (exec .deinit { inFrame 3 [(0, 0x7E)] with volume := 0x14, hstate := .ready, replies := [.fail] }) =
      some (0, 0, .uninitialized, [(0, 0x7E)]) := by decide
theorem test_deinit_without_hook :
    reads (fun t => (t.calls.length, t.hostLog))
        (exec .deinit { State.reset with cfg := { Config.default with hasDeinit := false } }) =
      some (0, [.status .ok]) := by decide

/-! ### Steps and the port level (vectors V-H1 to V-H5) -/

/-- A word presented after reset is what the next step runs. -/
theorem test_step_runs_presented_words :
    reads State.lastCmdOp (step ((answering [.ok]).withFetchWord 64 0x7EFF060D010000EF)) = some 0x0D ∧
      reads State.track (step (State.reset.withFetchWord 80 0x7EFF0648000005_0000EF)) = some 5 ∧
      reads framer (step (State.reset.withFetchWord 8 0x7E)) = some (.inFrame, 1, [.cont]) ∧
      reads framer (step (State.reset.withFetchWord 8 0xEF)) = some (.idle, 0, [.frameError]) := by decide

theorem test_step_refuses_a_word_of_no_row :
    (match step (State.reset.withFetchWord 64 0x7EFF0601000000EF) with
      | .refused (.noSuchWord e) => some e
      | _ => none) = some .txConstants := by decide

/-- V-H1. -/
theorem test_port_after_reset :
    (portOut State.reset).cmdReady = true ∧ (portOut State.reset).txValid = false ∧ (portOut State.reset).hstate = 0 ∧
      (portOut State.reset).fstate = 0 ∧ (portOut State.reset).volume = 0 := by decide

/-- R31: four bits for CAP 10, five for 17 and 32, six for 33. -/
theorem test_cursor_width : cursorBits 10 = 4 ∧ cursorBits 16 = 4 ∧ cursorBits 17 = 5 ∧ cursorBits 32 = 5 ∧ cursorBits 33 = 6 := by
  decide

/-- R67, V-E5: without the send capability: `tx_busy` is 1 and `cmd_ready` 0 in the cycle where `cmd_done` pulses with status 1. -/
theorem test_port_command_without_capability :
    (match clockEdge { cmdValid := true, cmdOp := 0x43 } { State.reset with cfg := { Config.default with hasSend := false } } with
      | .ok t => some ((portOut t).cmdReady, (portOut t).cmdDone, (portOut t).cmdStatus, (portOut t).txValid, t.txCmd.op)
      | .error _ => none) = some (false, true, some 1, false, 0x43) := by decide

/-- R107: the numbers are big-endian; a frame's number read from the other end is a word of no row. -/
theorem test_mirrored_number_is_no_word :
    decodeTableWord 64 0xEF0000010106FF7E = none ∧ decodeTableWord 80 0xEF000005000043_06FF7E = none := by decide

/-- R66: a pulse of each kind is registered; `rst` suppresses them in its cycle, and without it they show. -/
theorem test_rst_suppresses_pulses :
    NoPulse (portOut { State.reset with pulses := ⟨some .transportError, some .frameError, some .ok⟩ } true) ∧
      (portOut { State.reset with pulses := ⟨some .transportError, some .frameError, some .ok⟩ }).cmdStatus = some 2 ∧
      (portOut { State.reset with pulses := ⟨some .transportError, some .frameError, some .ok⟩ }).frameError = true ∧
      (portOut { State.reset with pulses := ⟨some .transportError, some .frameError, some .ok⟩ }).lifeDone = true :=
  ⟨⟨rfl, rfl, rfl, rfl, rfl, rfl, rfl, rfl⟩, rfl, rfl, rfl⟩

/-- V-H2: the frame on the port, byte 0 in bits 63 to 56. -/
theorem test_port_frame :
    (portOut { State.reset with txBusy := true, txCmd := ⟨0x06, 0x00, 0x1E⟩ }).txFrame = some 0x7EFF060601001EEF := by decide

/-- V-H3: `tx_nak` gives status 2; the record of the last command is unchanged. -/
theorem test_port_nak :
    (match clockEdge { txNak := true } { State.reset with txBusy := true, txCmd := ⟨0x06, 0x00, 0x1E⟩ } with
      | .ok t => some ((portOut t).cmdStatus, command t)
      | .error _ => none) = some (some 2, ⟨0, 0, false, []⟩) := by decide

/-- V-H5: the tenth byte of a frame with code 0x99. -/
theorem test_port_frame_error :
    (match clockEdge { rxValid := true, rxByte := 0xEF } (inFrame 9 [(0, 0x7E), (3, 0x99)]) with
      | .ok t => some ((portOut t).feedResult, (portOut t).frameError, (portOut t).frameReady)
      | .error _ => none) = some (2, true, false) := by decide

/-! ### Witnesses: a state and operands that meet the hypotheses of each statement -/

/-- Meets SendCommits, NamedCommandsCommit, VolumeSetClamps. -/
theorem witness_command_answered_ok :
    cmdReady (answering [.ok, .fail]) = true ∧ (answering [.ok, .fail]).cfg.hasSend = true ∧
      (answering [.ok, .fail]).replies = .ok :: [.fail] := by decide

/-- Meets SendFailureLeavesState, CommandFailureLeavesState. -/
theorem witness_command_answered_fail :
    sends (.playIndex 5) = true ∧ cmdReady (answering [.fail]) = true ∧ (answering [.fail]).cfg.hasSend = true ∧
      (answering [.fail]).replies = .fail :: [] := by decide

theorem witness_CommandWithoutCapability :
    sends (.volSet 45) = true ∧ cmdReady { State.reset with cfg := { Config.default with hasSend := false } } = true := by decide

theorem witness_UnansweredSendWaits :
    cmdReady State.reset = true ∧ State.reset.cfg.hasSend = true ∧ State.reset.replies = [] := by decide

/-- Meets CommandRefusedWhileNotReady (both reasons) and LifecycleIgnoredWhileBusy. -/
theorem witness_not_ready :
    sends .stop = true ∧ cmdReady { State.reset with txBusy := true } = false ∧
      cmdReady { State.reset with seq := .initAfterReset } = false := by decide

theorem witness_CommandsLeaveStatusAndFramer : ∃ t, sends .play = true ∧ exec .play (answering [.ok]) = .next t :=
  ⟨_, rfl, rfl⟩

theorem witness_EncodedFrameInjective : encodeFrame 0x7E 0xEF 0x7E = encodeFrame 0x7E 0xEF 0x7E := rfl

/-- Meets StartMarkerOpensFrame, at the least capacity. -/
theorem witness_StartMarkerOpensFrame :
    State.reset.fstate = .idle ∧ 10 = State.reset.cfg.cap ∧ State.reset.buf.wf = true := by decide

theorem witness_StrayByteDiscarded : State.reset.fstate = .idle ∧ (0xEF : Byte) ≠ 0x7E := by decide

/-- Meets PayloadByteAppended at the least and the greatest cursor. -/
theorem witness_PayloadByteAppended :
    (inFrame 1 [(0, 0x7E)]).fstate = .inFrame ∧ (0x7E : Byte) ≠ 0xEF ∧ (inFrame 1 [(0, 0x7E)]).cursor + 1 < State.reset.cfg.cap ∧
      (inFrame 8 [(0, 0x7E)]).cursor + 1 < State.reset.cfg.cap ∧ (inFrame 8 [(0, 0x7E)]).buf.wf = true := by decide

theorem witness_OverflowResynchronises :
    (inFrame 9 [(0, 0x7E)]).fstate = .inFrame ∧ (0x7E : Byte) ≠ 0xEF ∧ (inFrame 9 [(0, 0x7E)]).cursor + 1 = State.reset.cfg.cap ∧
      (inFrame 9 [(0, 0x7E)]).buf.wf = true := by decide

/-- The clauses of EndMarkerCompletes about cells 3, 5 and 6, and its last cell. -/
theorem witness_EndMarkerCompletes :
    ∀ c ∈ [1, 3, 5, 6, 9], (inFrame c [(0, 0x7E), (3, 0x43)]).fstate = .inFrame ∧
      (inFrame c [(0, 0x7E), (3, 0x43)]).cfg.Admissible ∧ (inFrame c [(0, 0x7E), (3, 0x43)]).cursor < State.reset.cfg.cap ∧
      (inFrame c [(0, 0x7E), (3, 0x43)]).buf.wf = true := by decide

/-- Meets CompletionByCode, one state for each of its clauses. -/
theorem witness_CompletionByCode :
    ∀ code ∈ [0x43, 0x48, 0x3D, 0x42, 0x3A, 0x99], (inFrame 9 [(0, 0x7E), (3, code)]).fstate = .inFrame ∧
      (inFrame 9 [(0, 0x7E), (3, code)]).cfg.Admissible ∧
      (reads (fun t => t.lastRspCode) (exec .byteEofInframe (inFrame 9 [(0, 0x7E), (3, code)]))) = some code := by decide

/-- Meets UnrecognisedCodeTouchesNoStatus: a code of the frame, and the end marker itself in cell 3. -/
theorem witness_UnrecognisedCodeTouchesNoStatus :
    ∀ c ∈ [3, 9], (inFrame c [(0, 0x7E), (3, 0x99)]).fstate = .inFrame ∧ (inFrame c [(0, 0x7E), (3, 0x99)]).cfg.Admissible ∧
      (inFrame c [(0, 0x7E), (3, 0x99)]).cursor < State.reset.cfg.cap ∧ (inFrame c [(0, 0x7E), (3, 0x99)]).buf.wf = true ∧
      (if (inFrame c [(0, 0x7E), (3, 0x99)]).cursor = 3 then 0xEF else (inFrame c [(0, 0x7E), (3, 0x99)]).buf.read 3) ∉
        Config.default.responseCodes := by decide

/-- Meets FeedResultContract: a stray byte, a payload byte, a recognised and an unrecognised completion. -/
theorem witness_FeedResultContract :
    (∃ t, feed 0xEF State.reset = .ok t) ∧ (∃ t, feed 0x00 (inFrame 9 [(0, 0x7E)]) = .ok t) ∧
      (∃ t, feed 0xEF (inFrame 9 [(0, 0x7E), (3, 0x43)]) = .ok t) ∧
      (∃ t, feed 0xEF (inFrame 9 [(0, 0x7E), (3, 0x99)]) = .ok t) := ⟨⟨_, rfl⟩, ⟨_, rfl⟩, ⟨_, rfl⟩, ⟨_, rfl⟩⟩

theorem witness_StrayBytesChangeNothing : State.reset.fstate = .idle ∧ 0x7E#8 ∉ [0x00, 0xFF, 0xEF, 0x55] := by decide

/-- A frame in progress meets the invariant. -/
theorem witness_inFrame_invariant : ∀ c ∈ [1, 9], MachineInv (inFrame c [(0, 0x7E)]) := by
  intro c hc
  simp only [List.mem_cons, List.not_mem_nil, or_false] at hc
  rcases hc with rfl | rfl
  · exact ⟨by decide, ⟨by decide, by decide⟩, ⟨by decide, by decide⟩, fun _ => ⟨rfl, rfl⟩, ⟨by decide, by decide, trivial⟩,
      fun f hf => (by cases hf)⟩
  · exact ⟨by decide, ⟨by decide, by decide⟩, ⟨by decide, by decide⟩, fun _ => ⟨rfl, rfl⟩, ⟨by decide, by decide, trivial⟩,
      fun f hf => (by cases hf)⟩

/-- Meets FramerReturnsToIdle at the two ends of the cursor's range. -/
theorem witness_FramerReturnsToIdle :
    MachineInv (inFrame 1 [(0, 0x7E)]) ∧ (List.replicate 9 (0x00 : Byte)).length = State.reset.cfg.cap - 1 ∧
      MachineInv (inFrame 9 [(0, 0x7E)]) ∧ [(0x00 : Byte)].length = State.reset.cfg.cap - 9 :=
  ⟨witness_inFrame_invariant 1 (by decide), by decide, witness_inFrame_invariant 9 (by decide), by decide⟩

/-- A state with the sequencer at a position, its SEND outstanding where it awaits one; the framer is idle, the buffer not empty. -/
def waiting (q : Seq) : State :=
  { State.reset with
    seq := q, txBusy := decide (q = .initReset) || decide (q = .initSelect),
    txCmd := if q = .initReset then ⟨0x0C, 0x00, 0x00⟩ else ⟨0x09, 0x00, 0x02⟩, volume := 7, buf := [(0, 0x7E)] }

/-- Every position of the sequencer meets the invariant. -/
theorem witness_waiting_invariant (q : Seq) : MachineInv (waiting q) := by
  refine ⟨by cases q <;> decide, by cases q <;> exact ⟨by decide, by decide⟩, by cases q <;> exact ⟨by decide, by decide⟩,
    fun _ => ⟨rfl, rfl⟩, ?_, fun f hf => (by cases hf)⟩
  cases q
  · exact ⟨by decide, by decide, trivial⟩
  · exact ⟨by decide, by decide, rfl, rfl, rfl, rfl, rfl⟩
  · exact ⟨by decide, by decide, rfl, rfl, rfl, rfl⟩
  · exact ⟨by decide, by decide, rfl, rfl, rfl, rfl⟩
  · exact ⟨by decide, by decide, rfl, rfl, rfl, rfl⟩
  · exact ⟨by decide, by decide, rfl, rfl, rfl, rfl⟩
  · exact ⟨by decide, by decide, rfl, rfl, rfl, rfl⟩
  · exact ⟨by decide, by decide, rfl, rfl⟩

/-- An idle state that is not the reset state and meets the invariant: a SEND is outstanding inside INIT. -/
abbrev initSelecting : State := waiting .initSelect

theorem witness_initSelecting_invariant : MachineInv initSelecting := witness_waiting_invariant _

/-- Meets TruncatedFrameSwallowsNext: vector V-F11. -/
theorem witness_TruncatedFrameSwallowsNext :
    MachineInv initSelecting ∧ initSelecting.fstate = .idle ∧ eof ∉ [(0xFF : Byte), 0x06] ∧
      (⟨0xFF, 6, 0, 0, 0x1E, 0, 0⟩ : RxFields).Nominal 0x43 ∧ 1 + 2 < initSelecting.cfg.cap ∧ initSelecting.cfg.cap ≤ 10 + 2 ∧
      0x7E#8 ∉ (rxFrame 0x43 ⟨0xFF, 6, 0, 0, 0x1E, 0, 0⟩).drop (10 - (1 + 2)) :=
  ⟨witness_initSelecting_invariant, by decide, by decide, by decide, by decide, by decide, by decide⟩

/-- Meets ReceptionAlwaysRuns, with a SEND outstanding and INIT running. -/
theorem witness_ReceptionAlwaysRuns :
    MachineInv initSelecting ∧ receives (.rspVolume parserFields) = true ∧ receives (.bytePayloadOverflow 0xEF) = true :=
  ⟨witness_initSelecting_invariant, rfl, rfl⟩

/-- Meets the statements of the eleven response rows: any code but 0xEF with nominal bytes, from Idle. -/
theorem witness_response_rows :
    parserStart.fstate = .idle ∧ parserStart.cfg.Admissible ∧ parserStart.buf.wf = true ∧
      (∀ code : Byte, code ≠ eof → parserFields.Nominal code) ∧ 0x99#8 ∉ Config.default.responseCodes :=
  ⟨rfl, by decide, rfl,
    fun _ h => ⟨by decide, by decide, h, by decide, by decide, by decide, by decide, by decide⟩, by decide⟩

/-- The clause of StatusFrame where the data is 0. -/
theorem witness_StatusFrame_stopped : (⟨0xFF, 6, 0, 0, 0, 0, 0⟩ : RxFields).Nominal Config.default.rcStatus := by decide

theorem witness_EndMarkerInDataEndsFrame :
    State.reset.fstate = .idle ∧ State.reset.cfg.Admissible ∧ State.reset.buf.wf = true ∧ (0xFF : Byte) ≠ eof ∧
      (6 : Byte) ≠ eof ∧ (0 : Byte) ≠ eof ∧ (0xEF : Byte) = eof ∧ (0 : Byte) ≠ sof := by decide

theorem witness_InitNeedsCapabilities :
    cmdReady { State.reset with cfg := { Config.default with hasDelay := false } } = true ∧
      cmdReady { State.reset with cfg := { Config.default with hasSend := false } } = true := by decide

/-- Meets InitCompletes with the init hook and without it. -/
theorem witness_InitCompletes :
    cmdReady (answering [.ok, .fail, .ok, .ok, .ok, .fail]) = true ∧ State.reset.hstate = .uninitialized ∧
      State.reset.cfg.hasDelay = true ∧ State.reset.cfg.hasSend = true ∧
      (answering [.ok, .fail, .ok, .ok, .ok, .fail]).replies =
        (if State.reset.cfg.hasInit then [.ok] else []) ++ [.fail, .ok, .ok, .ok, .fail] ++ [] ∧
      [Answer.fail, .ok, .ok, .ok, .fail] =
        (if ({ Config.default with hasInit := false } : Cfg).hasInit then [.ok] else []) ++ [.fail, .ok, .ok, .ok, .fail] ++ [] := by
  decide

theorem witness_InitStartResets :
    cmdReady State.reset = true ∧ State.reset.hstate = .uninitialized ∧ State.reset.cfg.hasDelay = true ∧
      State.reset.cfg.hasSend = true ∧ State.reset.replies = [] := by decide

/-- Meets the three clauses of InitFailureAborts: the hook, the reset command, the device-select command. -/
theorem witness_InitFailureAborts :
    State.reset.cfg.hasInit = true ∧ (answering [.fail]).replies = .fail :: [] ∧
      (answering [.ok, .ok, .fail]).replies = (if State.reset.cfg.hasInit then [.ok] else []) ++ [.ok, .fail] ++ [] ∧
      (answering [.ok, .ok, .ok, .ok, .fail]).replies =
        (if State.reset.cfg.hasInit then [.ok] else []) ++ [.ok, .ok, .ok, .fail] ++ [] := by decide

theorem witness_InitRefusedWhileReady :
    cmdReady { State.reset with hstate := .ready } = true ∧ Config.default.hasDelay = true ∧ Config.default.hasSend = true := by
  decide

/-- Meets DeinitCompletes with the teardown hook and without it. -/
theorem witness_DeinitCompletes :
    cmdReady (answering [.fail]) = true ∧
      (answering [.fail]).replies = (if (answering [.fail]).cfg.hasDeinit then [.fail] else []) ++ [] ∧
      ([] : List Answer) = (if ({ Config.default with hasDeinit := false } : Cfg).hasDeinit then [.fail] else []) ++ [] := by
  decide

/-- Meets InitGoesOnAfterReception, a state for each of its clauses. -/
theorem witness_InitGoesOnAfterReception :
    ∀ q ∈ [Seq.initHook, .initStabilize, .initReset, .initAfterReset, .initSelect, .initAfterSelect],
      MachineInv (waiting q) ∧ (waiting q).seq = q ∧ q ≠ .idle ∧ (waiting q).fstate = .idle ∧
        parserFields.Nominal (waiting q).cfg.rcAck :=
  fun q hq => ⟨witness_waiting_invariant q, rfl, by revert q; decide, rfl,
    show parserFields.Nominal Config.default.rcAck by decide⟩

/-- Meets StepKeepsInvariant, StepNeverFaults, StepKeepsConfiguration: a step of a state with a presented word. -/
theorem witness_step :
    MachineInv (initSelecting.withFetchWord 8 0x7E) ∧ ∃ t, step (initSelecting.withFetchWord 8 0x7E) = .next t :=
  ⟨Inv_of_same witness_initSelecting_invariant rfl rfl rfl rfl rfl rfl rfl witness_initSelecting_invariant.sequencer rfl,
    _, rfl⟩

/-- Meets MediaAndLifecycleAreSticky and DeviceStateWriters: a command, a received row and ENCODE. -/
theorem witness_other_instructions :
    (∃ t, exec .play (answering [.ok]) = .next t) ∧ (∃ t, exec .byteSofIdle State.reset = .next t) ∧
      (∃ t, exec (.encode 1 2 3) State.reset = .next t) := ⟨⟨_, rfl⟩, ⟨_, rfl⟩, ⟨_, rfl⟩⟩

/-- The two orders of an end marker and a SEND meet SendRacesResponse. -/
theorem witness_SendRacesResponse :
    MachineInv { inFrame 9 [(0, 0x7E)] with replies := [.ok] } ∧
      ∃ t u v w, exec .byteEofInframe { inFrame 9 [(0, 0x7E)] with replies := [.ok] } = .next t ∧
        exec (.send 1 0 0) t = .next u ∧ exec (.send 1 0 0) { inFrame 9 [(0, 0x7E)] with replies := [.ok] } = .next v ∧
        exec .byteEofInframe v = .next w :=
  ⟨Inv_replies _ (witness_inFrame_invariant 9 (by decide)), _, _, _, _, rfl, rfl, rfl, rfl⟩

theorem witness_ResetPinWins : ({ rst := true, cmdValid := true, rxValid := true } : PortIn).rst = true := rfl

/-- Meets PortSendCommits with the send capability and without it; the last pins are ones that clause leaves free. -/
theorem witness_PortSendCommits :
    cmdReady State.reset = true ∧ State.reset.cfg.hasSend = true ∧ State.reset.pulses = Pulses.none ∧
      cmdReady { State.reset with cfg := { Config.default with hasSend := false } } = true ∧
      ({ cmdValid := true, txAck := true, initReq := true } : PortIn).rst = false ∧
      ({ cmdValid := true, txAck := true, initReq := true } : PortIn).rxValid = false := by decide

/-- A handoff of the host outstanding, in the middle of a frame, with these events to come. -/
def outstanding (agenda : List Event) : State :=
  { inFrame 9 [(0, 0x7E)] with txBusy := true, txCmd := ⟨0x06, 0x00, 0x1E⟩, agenda := agenda }

/-- Meets PortNakWins and PortFeedBeforeCommit, with an end marker as the byte. -/
theorem witness_outstanding_handoff :
    (outstanding []).txBusy = true ∧ (outstanding []).cfg.hasSend = true ∧ (outstanding []).seq = .idle ∧
      ∃ t, feed 0xEF (outstanding []) = .ok t := ⟨rfl, rfl, rfl, _, rfl⟩

/-- Meets the two clauses of LateAnswerCommits. -/
theorem witness_LateAnswerCommits :
    (outstanding [.reply .ok]).txBusy = true ∧ (outstanding [.reply .ok]).cfg.hasSend = true ∧
      (outstanding [.reply .ok]).seq = .idle ∧ (outstanding [.reply .ok]).agenda = .reply .ok :: [] ∧
      (outstanding [.reply .fail]).txBusy = true ∧ (outstanding [.reply .fail]).cfg.hasSend = true ∧
      (outstanding [.reply .fail]).seq = .idle ∧ (outstanding [.reply .fail]).agenda = .reply .fail :: [] := by decide

/-- The clauses of PortLifecycleRequests. -/
theorem witness_PortLifecycleRequests :
    cmdReady State.reset = true ∧ State.reset.hstate = .uninitialized ∧ State.reset.replies = [] ∧
      cmdReady { State.reset with hstate := .ready } = true ∧ cmdReady (waiting .initHook) = false ∧
      cmdReady { State.reset with cfg := { Config.default with hasSend := false }, txBusy := true } = false := by decide

/-- The clauses of PortFeedResult: a received byte; an edge without one, with a request and under `rst`; a cursor in the
buffer; the least capacity. -/
theorem witness_PortFeedResult :
    (∃ t, feed 0x7E State.reset = .ok t) ∧ State.reset.pulses.feedDone = none ∧
      (∃ u, clockEdge { initReq := true } State.reset = .ok u) ∧ (∃ u, clockEdge { rst := true } (inFrame 9 []) = .ok u) ∧
      (inFrame 9 []).cursor < (inFrame 9 []).cfg.cap ∧ 2 ≤ (inFrame 9 []).cfg.cap :=
  ⟨⟨_, rfl⟩, rfl, ⟨_, rfl⟩, ⟨_, rfl⟩, by decide, by decide⟩

/-- The clauses of StepRunsPresentedInstruction: the two about words, the two about a late answer, and an edge that ends well
and one that meets a cell that does not exist. -/
theorem witness_StepRunsPresentedInstruction :
    decode State.reset.cfg ⟨State.reset.fstate, State.reset.cursor⟩ (.bytes [0x7E]) = .ok .byteSofIdle ∧
      decode State.reset.cfg ⟨State.reset.fstate, State.reset.cursor⟩ (.bytes []) = .error (.noFormat 0) ∧
      (outstanding [.reply .ok]).agenda = .reply .ok :: [] ∧ cmdReady (outstanding []) = false ∧ cmdReady State.reset = true ∧
      (∃ t, clockEdge { rxValid := true, rxByte := 0x01 } (outstanding []) = .ok t) ∧
      (∃ f, clockEdge { rxValid := true, rxByte := 0x01 } (inFrame 10 []) = .error f) :=
  ⟨by decide, by decide, rfl, by decide, by decide, ⟨_, rfl⟩, ⟨_, rfl⟩⟩

/-- Meets PortCapabilityHandshake, a state for each of its positions, pins that answer nothing, and pins that answer. -/
theorem witness_PortCapabilityHandshake :
    (∀ q, MachineInv (waiting q) ∧ (waiting q).seq = q) ∧ (waiting .deinitHook).seq ≠ .idle ∧
      ({ cmdValid := true, initReq := true, deinitReq := true } : PortIn).Unanswered ∧ Answered true false ∧
      Answered false true ∧ (waiting .initHook).pulses.lifeDone = none ∧ (portOut (waiting .initHook)).delayReq = false :=
  ⟨fun q => ⟨witness_waiting_invariant q, rfl⟩, by decide, ⟨rfl, rfl, rfl, rfl, rfl, rfl, rfl, rfl⟩, .inl rfl, .inr rfl, rfl,
    rfl⟩

/-- Meets DecodeInvertsEncode: the default configuration, a command, a response and a byte row. -/
theorem witness_DecodeInvertsEncode :
    Config.default.Admissible ∧ Config.default.opcodes.Nodup ∧
      (∀ i ∈ [Instr.volSet 30, .send 0x06 0x00 0x1F, .rspUnrecognized 0x99 parserFields],
        i.wellFormed Config.default = true ∧ i.rowApplies Config.default ⟨.idle, 0⟩ = true) ∧
      ¬ NamedRow Config.default 0x06 0x00 0x1F ∧ (30 : Byte) ≤ volMax ∧
      (Instr.bytePayloadOverflow 0x7E).wellFormed Config.default = true ∧
      (Instr.bytePayloadOverflow 0x7E).rowApplies Config.default ⟨.inFrame, 9⟩ = true := by decide

theorem witness_EncodeInvertsDecode :
    decode Config.default ⟨.inFrame, 9⟩ (.bytes [0x7E]) = .ok (.bytePayloadOverflow 0x7E) := by decide

end Sys2Proof.Tests
end

section
/-!
PROOFS. The encoding family (`30_encoding.md`).
-/

namespace Sys2Proof.Proofs

open Sys2Proof.Machine

/-- Settles O1: the frame is built of the constants of R90 and R94 around the triple, so their values give R110. -/
theorem encodedFrameBytes : Obligations.EncodedFrameBytes := by
  intro op hi lo
  simp only [encodeFrame, sof, ver, len, fb, eof, BitVec.ofNat_eq_ofNat]

end Sys2Proof.Proofs
end

section
/-!
PROOFS. The encoder family (`40_encoder.md`).
-/

namespace Sys2Proof.Proofs

open Sys2Proof.Machine

/-! ### The arms of `exec` for SEND and ENCODE -/

theorem exec_send (op hi lo : Byte) (s : State) : exec (.send op hi lo) s = sendCommand op hi lo s := rfl

theorem exec_encode (op hi lo : Byte) (s : State) :
    exec (.encode op hi lo) s = .next (emitFrame (encodeFrame op hi lo) s) := rfl

/-! ### The inverse of ENCODE on its image -/

@[simp] theorem encodeFrame_byte3 (op hi lo : Byte) : (encodeFrame op hi lo)[3]? = some op := rfl

@[simp] theorem encodeFrame_byte5 (op hi lo : Byte) : (encodeFrame op hi lo)[5]? = some hi := rfl

@[simp] theorem encodeFrame_byte6 (op hi lo : Byte) : (encodeFrame op hi lo)[6]? = some lo := rfl

/-- R121: equal frames agree at bytes 3, 5 and 6, where the triple stands. -/
theorem encodeFrame_injective {op hi lo op' hi' lo' : Byte} (h : encodeFrame op hi lo = encodeFrame op' hi' lo') :
    op = op' ∧ hi = hi' ∧ lo = lo' := by
  have hbyte (n : Nat) : (encodeFrame op hi lo)[n]? = (encodeFrame op' hi' lo')[n]? := by rw [h]
  exact ⟨by simpa using hbyte 3, by simpa using hbyte 5, by simpa using hbyte 6⟩

/-- Settles O2: the arm of ENCODE answers a next state outright, and injectivity follows from the inverse. -/
theorem encodedFrameInjective : Obligations.EncodedFrameInjective := by
  intro op hi lo
  refine ⟨fun s => ⟨_, exec_encode op hi lo s⟩, fun _ _ _ => encodeFrame_injective, ?_⟩
  exact ⟨encodeFrame_byte3 op hi lo, encodeFrame_byte5 op hi lo, encodeFrame_byte6 op hi lo⟩

/-! ### SEND -/

/-- Settles O5: SEND runs `sendCommand`, whose failing case leaves S alone; the frame handed over is spelled out by O1. -/
theorem sendFailureLeavesState : Obligations.SendFailureLeavesState := by
  intro op hi lo rest s hready hsend hr
  rw [exec_send, sendCommand_fail op hi lo rest hready hsend hr, encodedFrameBytes, SentFail]

end Sys2Proof.Proofs
end

section
/-!
PROOFS. The framer family (`41_framer.md`).
-/

namespace Sys2Proof.Proofs

open Sys2Proof.Machine

/-! ### A stray byte -/

theorem exec_byteStrayIdle (b : Byte) (s : State) : exec (.byteStrayIdle b) s = outcomeOf (feed b s) := rfl

/-- Settles O14: the row runs FEED of its byte, which in Idle takes the stray arm for every byte but 0x7E. -/
theorem strayByteDiscarded : Obligations.StrayByteDiscarded := by
  intro b s hidle hb
  rw [exec_byteStrayIdle, feed_stray hidle hb]
  rfl

/-! ### The result of FEED -/

/-- R158, R171: the completion step answers by the set of R100. -/
theorem feedResultOf_dispatch (code : Byte) (data : Half) (s : State) :
    feedResultOf (dispatchResponse code data (s.recordResponse code data)).2 =
      if code ∈ s.cfg.responseCodes then .frameReady else .frameError := by
  rw [dispatchResponse_result, recordResponse_cfg]
  split <;> rfl

/-- R151 to R155, read for the result: every step but a completion answers Continue and writes nothing but the framer and the
buffer; a completion dispatches what PARSE reads. -/
theorem feed_continues_or_completes {b : Byte} {s t : State} (h : feed b s = .ok t) :
    (¬ (s.fstate = .inFrame ∧ b = eof) ∧
        t = emitFeed .cont { s with buf := t.buf, fstate := t.fstate, cursor := t.cursor }) ∨
      ((s.fstate = .inFrame ∧ b = eof) ∧ t = dispatched s.completed.code s.completed.data s.completed) := by
  rcases feed_cases h with ⟨hs, -, -, rfl⟩ | ⟨hs, -, rfl⟩ | ⟨hs, hb, -, -, ht⟩ | ⟨-, hb, -, -, rfl⟩ | ⟨-, hb, -, -, rfl⟩
  · exact .inl ⟨by simp [hs], rfl⟩
  · exact .inl ⟨by simp [hs], rfl⟩
  · exact .inr ⟨⟨hs, hb⟩, ht⟩
  · exact .inl ⟨fun hc => hb hc.2, rfl⟩
  · exact .inl ⟨fun hc => hb hc.2, rfl⟩

/-- Settles O20: a step that continues answers Continue and leaves Device State alone; a completion answers by whether the code it
recorded is in the set of R100. -/
theorem feedResultContract : Obligations.FeedResultContract := by
  intro b s t _ h
  rcases feed_continues_or_completes h with ⟨hnot, ht⟩ | ⟨hcomplete, ht⟩
  · refine ⟨.cont, by rw [ht]; rfl, by rw [ht]; rfl, ?_, ?_, fun _ => by rw [ht]; rfl⟩
    · exact iff_of_false (fun hr => hr rfl) hnot
    · exact iff_of_false nofun fun hr => hnot hr.1
  · have hcode : t.lastRspCode = s.completed.code := by rw [ht, dispatched_code]
    refine ⟨if t.lastRspCode ∈ s.cfg.responseCodes then .frameReady else .frameError, ?_, ?_, ?_⟩
    · rw [hcode, ht, dispatched_feedLog, feedResultOf_dispatch]; rfl
    · rw [hcode, ht, dispatched_pulses, feedResultOf_dispatch]; rfl
    · have hframe : s.fstate = .inFrame ∧ b = 0xEF := hcomplete
      by_cases hrec : t.lastRspCode ∈ s.cfg.responseCodes <;> simp [hrec, hframe]

end Sys2Proof.Proofs
end

section
/-!
PROOFS. The parser family (`42_parser.md`).
-/

namespace Sys2Proof.Proofs

open Sys2Proof.Machine

/-! ### The arm of `exec` for the end marker -/

theorem exec_byteEofInframe (s : State) : exec .byteEofInframe s = outcomeOf (feed eof s) := rfl

theorem outcomeOf_eq_next {r : Except Fault State} {t : State} (h : outcomeOf r = .next t) : r = .ok t := by
  cases r with
  | ok u => cases h; rfl
  | error f => cases h

/-! ### The four status fields after PARSE -/

/-- R173 to R183: the status fields of `t` are those of `s` with what the arm of `code` writes. -/
structure StatusByCode (code : Byte) (data : Half) (s t : State) : Prop where
  volume : t.volume = if code = s.cfg.rcVolume then data else s.volume
  track : t.track =
    if code = s.cfg.rcTrackCount then data
    else if code = s.cfg.rcPlayCompleted ∨ (code = s.cfg.rcStatus ∧ data = 0) then 0
    else s.track
  status : t.status = if code = s.cfg.rcStatus then data else s.status
  media : t.media = (s.media || decide (code = s.cfg.rcMediaInserted))

/-- R175, R176, R180 to R183: a code of none of the five arms that write keeps the status fields. -/
theorem StatusByCode.unchanged {code : Byte} (data : Half) {s : State} (hmedia : code ≠ s.cfg.rcMediaInserted)
    (hplay : code ≠ s.cfg.rcPlayCompleted) (hstatus : code ≠ s.cfg.rcStatus) (hvolume : code ≠ s.cfg.rcVolume)
    (htrack : code ≠ s.cfg.rcTrackCount) : StatusByCode code data s s := by
  constructor <;> simp [*]

/-- R172, R184: an arm is entered after the codes before it failed to match; that the codes after it do not match either is
R101, the codes being pairwise distinct. -/
theorem dispatchResponse_statusByCode (code : Byte) (data : Half) {s : State} (hdistinct : s.cfg.responseCodes.Nodup) :
    StatusByCode code data s (dispatchResponse code data s).1 := by
  simp only [Cfg.responseCodes, List.nodup_cons, List.mem_cons, not_or, List.not_mem_nil] at hdistinct
  simp only [dispatchResponse]
  split_ifs with hmedia hplay herror hack hstatus hvolume htrack hfolder hfolderTrack hfolderFile
  · subst hmedia; constructor <;> simp [armMediaInserted, hdistinct]
  · subst hplay; constructor <;> simp [armPlayCompleted, hmedia, hdistinct]
  · subst herror; exact .unchanged data hmedia hplay (by simp [hdistinct]) (by simp [hdistinct]) (by simp [hdistinct])
  · subst hack; exact .unchanged data hmedia hplay (by simp [hdistinct]) (by simp [hdistinct]) (by simp [hdistinct])
  · subst hstatus; constructor <;> simp [armStatus, hmedia, hplay, hdistinct]
  · subst hvolume; constructor <;> simp [armVolume, hmedia, hplay, hstatus, hdistinct]
  · subst htrack; constructor <;> simp [armTrackCount, hmedia, hstatus, hvolume]
  · exact .unchanged data hmedia hplay hstatus hvolume htrack
  · exact .unchanged data hmedia hplay hstatus hvolume htrack
  · exact .unchanged data hmedia hplay hstatus hvolume htrack
  · exact .unchanged data hmedia hplay hstatus hvolume htrack

/-- R171: neither the bookkeeping before the dispatch nor the result after it touches a status field. -/
theorem dispatched_statusByCode (code : Byte) (data : Half) {s : State} (hdistinct : s.cfg.responseCodes.Nodup) :
    StatusByCode code data s (dispatched code data s) := by
  obtain ⟨hvolume, htrack, hstatus, hmedia⟩ :=
    dispatchResponse_statusByCode (s := s.recordResponse code data) code data hdistinct
  exact ⟨hvolume, htrack, hstatus, hmedia⟩

theorem dispatched_valid (code : Byte) (data : Half) (s : State) : (dispatched code data s).lastRspValid = true := by
  rw [dispatched_frame]

/-- Settles O18: the end marker in a frame completes it, and the completion dispatches the code and the data it records. -/
theorem completionByCode : Obligations.CompletionByCode := by
  intro s t hs hadm hexec
  obtain ⟨-, hvol, htc, hdistinct, -, -⟩ := hadm
  rw [exec_byteEofInframe] at hexec
  rcases feed_continues_or_completes (outcomeOf_eq_next hexec) with ⟨hnot, -⟩ | ⟨-, rfl⟩
  · exact absurd ⟨hs, rfl⟩ hnot
  · obtain ⟨hvolume, htrack, hstatus, hmedia⟩ :=
      dispatched_statusByCode (s := s.completed) s.completed.code s.completed.data hdistinct
    rw [dispatched_code, dispatched_data, dispatched_feedLog, feedResultOf_dispatch]
    exact ⟨dispatched_valid _ _ _, hvolume, htrack, hstatus, hmedia, rfl, hvol, htc⟩

end Sys2Proof.Proofs
end

section
/-!
PROOFS. The lifecycle family (`43_lifecycle.md`).
-/

namespace Sys2Proof.Proofs

open Sys2Proof.Machine

/-! ### INIT without a capability -/

theorem exec_init (s : State) : exec .init s = execInit s := rfl

/-- R202: the capability check fails before the reset of INIT's start and before any call. -/
theorem acceptInit_noCapability {s : State} (hcap : ¬ (s.cfg.hasDelay ∧ s.cfg.hasSend)) :
    acceptInit s = emitLifecycle .invalidParameter s := by
  rw [acceptInit, if_neg hcap]

/-- The end of a lifecycle operation leaves the sequencer idle, so with `tx_busy` at 0 nothing is outstanding. -/
theorem cmdReady_emitLifecycle (r : Status) {s : State} (hb : s.txBusy = false) : cmdReady (emitLifecycle r s) = true :=
  cmdReady_iff.mpr ⟨hb, rfl⟩

/-- Where the sequencer is idle already, the end of an operation shows in the result log and the pulse alone. -/
theorem emitLifecycle_of_idle (r : Status) {s : State} (hq : s.seq = .idle) :
    emitLifecycle r s =
      { s with hostLog := s.hostLog ++ [.status r], pulses := { s.pulses with lifeDone := some r } } := by
  rw [emitLifecycle, ← hq]

/-- R202, R230 b: without a capability INIT ends at once, in Ready too, and takes no answer. -/
theorem execInit_noCapability {s : State} (hready : cmdReady s = true) (hcap : ¬ (s.cfg.hasDelay ∧ s.cfg.hasSend)) :
    execInit s = .next (emitLifecycle .invalidParameter s) := by
  have hnotRefused : ¬ (s.cfg.hasDelay ∧ s.cfg.hasSend ∧ s.hstate = .ready) :=
    fun ⟨hdelay, hsend, _⟩ => hcap ⟨hdelay, hsend⟩
  have hended := cmdReady_emitLifecycle .invalidParameter (cmdReady_iff.mp hready).1
  rw [execInit, if_pos hready, if_neg hnotRefused, acceptInit_noCapability hcap, settle, settleWith_ready _ hended]

/-- Settles O33: the failed capability check ends INIT with nothing outstanding, so no answer is taken and only the result shows. -/
theorem initNeedsCapabilities : Obligations.InitNeedsCapabilities := by
  intro s hready hmissing
  have hcap : ¬ (s.cfg.hasDelay ∧ s.cfg.hasSend) := by
    rcases hmissing with hdelay | hsend
    · simp [hdelay]
    · simp [hsend]
  rw [exec_init, execInit_noCapability hready hcap, emitLifecycle_of_idle _ (cmdReady_iff.mp hready).2]

end Sys2Proof.Proofs
end

section
/-!
PROOFS. The machine's invariant: what one operation and one step can do, said once, and what every step keeps (R9, R32, R183).
-/

namespace Sys2Proof.Proofs

open Sys2Proof.Machine

/-! ### What an operation can do -/

/-- R122: a SEND that answers a next state found the command port ready. -/
theorem sendCommand_eq_next {op hi lo : Byte} {s t : State} (h : sendCommand op hi lo s = .next t) :
    cmdReady s = true ∧ t = settle (acceptSend op hi lo s) := by
  rw [sendCommand] at h
  split at h
  · cases h; exact ⟨‹_›, rfl⟩
  · cases h

/-- R202 to R206: INIT is ignored, or it starts and takes the answers that stand ready. -/
theorem execInit_eq_next {s t : State} (h : execInit s = .next t) :
    (cmdReady s = false ∧ t = s) ∨
      (cmdReady s = true ∧ ¬ (s.cfg.hasDelay ∧ s.cfg.hasSend ∧ s.hstate = .ready) ∧ t = settle (acceptInit s)) := by
  rw [execInit] at h
  split at h
  · split at h
    · cases h
    · cases h; exact .inr ⟨‹_›, ‹_›, rfl⟩
  · cases h; exact .inl ⟨eq_false_of_ne_true ‹_›, rfl⟩

/-- R207, R208: DEINIT is ignored, or it starts and takes the answers that stand ready. -/
theorem execDeinit_eq_next {s t : State} (h : execDeinit s = .next t) :
    (cmdReady s = false ∧ t = s) ∨ (cmdReady s = true ∧ t = settle (acceptDeinit s)) := by
  rw [execDeinit] at h
  split at h
  · cases h; exact .inr ⟨‹_›, rfl⟩
  · cases h; exact .inl ⟨eq_false_of_ne_true ‹_›, rfl⟩

theorem exec_deinit (s : State) : exec .deinit s = execDeinit s := rfl

/-- What an instruction that answers a next state has done, by its group. -/
inductive Executed (s : State) : Instr → State → Prop
  /-- R104: a command is a SEND -/
  | command {i : Instr} {t : State} (op b1 b0 : Byte) (hi : sends i = true) (h : sendCommand op b1 b0 s = .next t) :
      Executed s i t
  /-- R150: a received row is FEED* of its bytes -/
  | received {i : Instr} {t : State} (bs : List Byte) (hi : receives i = true) (h : feedAll bs s = .ok t) : Executed s i t
  /-- R225 -/
  | encoded (op hi lo : Byte) : Executed s (.encode op hi lo) (emitFrame (encodeFrame op hi lo) s)
  /-- R203 -/
  | init {t : State} (h : execInit s = .next t) : Executed s .init t
  /-- R207 -/
  | deinit {t : State} (h : execDeinit s = .next t) : Executed s .deinit t

theorem exec_eq_next {i : Instr} {s t : State} (h : exec i s = .next t) : Executed s i t := by
  rcases instr_groups i with hi | hi | ⟨op, b1, b0, rfl⟩ | rfl | rfl
  · obtain ⟨op, b1, b0, hsend⟩ := exec_sends hi s.cfg
    exact .command op b1 b0 hi (hsend s rfl ▸ h)
  · obtain ⟨bs, hbs⟩ := exec_receives hi s
    exact .received bs hi (outcomeOf_eq_next (hbs ▸ h))
  · rw [exec_encode] at h; cases h; exact .encoded op b1 b0
  · exact .init h
  · exact .deinit h

/-! ### What a step can do -/

/-- What a step that answers a next state has done, by the oldest event. -/
inductive Stepped (s : State) : State → Prop
  /-- R238 -/
  | idle : Stepped s (idleStep s)
  /-- R65: a presented word that decodes, or a named operation -/
  | executed {i : Instr} {t : State} (rest : List Event) (h : exec i (endRejection (takeEvent rest s)) = .next t) : Stepped s t
  /-- R141 -/
  | replied (a : Answer) (rest : List Event) : Stepped s (replyStep a (endRejection (takeEvent rest s)))
  /-- R66 -/
  | clocked {p : PortIn} {t : State} (rest : List Event) (h : clockEdge p (takeEvent rest s) = .ok t) : Stepped s t

theorem step_eq_next {s t : State} (h : step s = .next t) : Stepped s t := by
  rw [step] at h
  split at h
  · cases h; exact .idle
  · rename_i e rest _
    cases e with
    | word r =>
      simp only [runEvent] at h
      split at h
      · exact .executed rest h
      · cases h
    | call i => exact .executed rest h
    | reply a => cases h; exact .replied a rest
    | edge p => exact .clocked rest (outcomeOf_eq_next h)

/-! ### The invariant -/

/-- Settles O42: each part of the invariant is evaluated at the reset values. -/
theorem resetMeetsInvariant : Obligations.ResetMeetsInvariant :=
  ⟨by decide, ⟨by decide, by decide⟩, ⟨rfl, rfl⟩, fun _ => ⟨rfl, rfl⟩, ⟨nofun, nofun, trivial⟩, nofun⟩

theorem Executed.keeps_Inv {i : Instr} {s t : State} (h : Executed s i t) (hi : MachineInv s) : MachineInv t := by
  cases h with
  | command op b1 b0 _ h =>
    obtain ⟨hready, rfl⟩ := sendCommand_eq_next h
    exact Inv_settle (Inv_acceptSend op b1 b0 hi hready)
  | received bs _ h => exact feedAll_keeps_Inv h hi
  | encoded op b1 b0 => exact Inv_of_same hi rfl rfl rfl rfl rfl rfl rfl hi.sequencer rfl
  | init h =>
    rcases execInit_eq_next h with ⟨-, rfl⟩ | ⟨hready, hnot, rfl⟩
    · exact hi
    · refine Inv_settle (Inv_acceptInit hi hready fun hdelay hsend => ?_)
      cases hu : s.hstate with
      | uninitialized => rfl
      | ready => exact absurd ⟨hdelay, hsend, hu⟩ hnot
  | deinit h =>
    rcases execDeinit_eq_next h with ⟨-, rfl⟩ | ⟨hready, rfl⟩
    · exact hi
    · exact Inv_settle (Inv_acceptDeinit hi hready)

theorem Inv_replyStep (a : Answer) {s : State} (hi : MachineInv s) : MachineInv (replyStep a s) := by
  rw [replyStep]
  split
  · exact hi
  · exact Inv_settle (Inv_answer a hi)

/-- R67, R72: the requests of a ready block keep the invariant; INIT is accepted on the pins in Uninitialized alone. -/
theorem Inv_acceptPins (p : PortIn) {s : State} (hi : MachineInv s) (hready : cmdReady s = true) :
    MachineInv (acceptPins p s) := by
  simp only [acceptPins]
  split_ifs with hcmd hdeinit hinit hstate
  · exact Inv_acceptCommand _ _ _ hi hready
  · exact Inv_acceptDeinit hi hready
  · exact hi
  · refine Inv_acceptInit hi hready fun _ _ => ?_
    cases hu : s.hstate with
    | uninitialized => rfl
    | ready => exact absurd hu hstate
  · exact hi

theorem clockEdge_keeps_Inv {p : PortIn} {s t : State} (h : clockEdge p s = .ok t) (hi : MachineInv s) : MachineInv t := by
  rcases clockEdge_cases h with ⟨-, rfl⟩ | ⟨-, u, hu, hend⟩
  · exact Inv_hardwareReset hi
  · have hiu : MachineInv u := by
      split at hu
      · exact feed_keeps_Inv hu hi
      · cases hu; exact hi
    rcases hend with ⟨hready, rfl⟩ | ⟨-, a, -, rfl⟩ | ⟨-, -, rfl⟩
    · exact Inv_acceptPins p hiu hready
    · exact Inv_answer a hiu
    · exact Inv_endRejection hiu

/-- Settles O43: taking the event keeps the invariant, and so does each operation that the event runs. -/
theorem stepKeepsInvariant : Obligations.StepKeepsInvariant := by
  intro s t hi h
  have htaken (rest : List Event) : MachineInv (takeEvent rest s) := Inv_takeEvent rest hi
  cases step_eq_next h with
  | idle => exact Inv_endRejection (htaken [])
  | executed rest h => exact (exec_eq_next h).keeps_Inv (Inv_endRejection (htaken rest))
  | replied a rest => exact Inv_replyStep a (Inv_endRejection (htaken rest))
  | clocked rest h => exact clockEdge_keeps_Inv h (htaken rest)

/-! ### No fault -/

theorem noFault_outcomeOf {r : Except Fault State} (h : ∃ t, r = .ok t) : NoFault (outcomeOf r) := by
  obtain ⟨t, rfl⟩ := h
  exact nofun

/-- R183, R231: of the instructions only the received rows could fault, and under the invariant FEED* answers. -/
theorem exec_noFault (i : Instr) {s : State} (hi : MachineInv s) : NoFault (exec i s) := by
  rcases instr_groups i with hsends | hrec | ⟨op, b1, b0, rfl⟩ | rfl | rfl
  · obtain ⟨op, b1, b0, hsend⟩ := exec_sends hsends s.cfg
    rw [hsend s rfl, sendCommand]
    split <;> exact nofun
  · obtain ⟨bs, hbs⟩ := exec_receives hrec s
    exact hbs ▸ noFault_outcomeOf (feedAll_total_of_Inv bs hi)
  · exact nofun
  · rw [exec_init, execInit]
    split
    · split <;> exact nofun
    · exact nofun
  · rw [exec_deinit, execDeinit]
    split <;> exact nofun

/-- R66: the one part of an edge that could fault is the FEED of its byte. -/
theorem clockEdge_total_of_Inv (p : PortIn) {s : State} (hi : MachineInv s) : ∃ t, clockEdge p s = .ok t := by
  rw [clockEdge]
  split
  · exact ⟨_, rfl⟩
  · obtain ⟨u, hu⟩ : ∃ u, (if p.rxValid then feed p.rxByte s else .ok s) = .ok u := by
      split
      · exact feed_total_of_Inv p.rxByte hi
      · exact ⟨s, rfl⟩
    simp only [hu]
    split
    · exact ⟨_, rfl⟩
    · split <;> exact ⟨_, rfl⟩

/-- Settles O44: the operation that the event runs starts from a state that meets the invariant. -/
theorem stepNeverFaults : Obligations.StepNeverFaults := by
  intro s hi
  have htaken (rest : List Event) : MachineInv (takeEvent rest s) := Inv_takeEvent rest hi
  rw [step]
  split
  · exact nofun
  · rename_i e rest _
    cases e with
    | word r =>
      simp only [runEvent]
      split
      · exact exec_noFault _ (Inv_endRejection (htaken rest))
      · exact nofun
    | call i => exact exec_noFault i (Inv_endRejection (htaken rest))
    | reply a => exact nofun
    | edge p => exact noFault_outcomeOf (clockEdge_total_of_Inv p (htaken rest))

/-! ### The configuration (R9) -/

theorem settle_cfg (s : State) : (settle s).cfg = s.cfg :=
  settleWith_keeps (P := fun t => t.cfg = s.cfg) (fun a t h => (answer_frame a t).2.1.trans h) (fun _ _ h => h) s.replies rfl

theorem feed_cfg {b : Byte} {s t : State} (h : feed b s = .ok t) : t.cfg = s.cfg := by rw [feed_frame h]

theorem feedAll_cfg {bs : List Byte} {s t : State} (h : feedAll bs s = .ok t) : t.cfg = s.cfg :=
  feedAll_keeps (P := fun t => t.cfg = s.cfg) (fun h hs => (feed_cfg h).trans hs) h rfl

theorem acceptSend_cfg (op hi lo : Byte) (s : State) : (acceptSend op hi lo s).cfg = s.cfg := by
  rw [acceptSend]; split <;> rfl

theorem acceptCommand_cfg (op hi lo : Byte) (s : State) : (acceptCommand op hi lo s).cfg = s.cfg := by
  rw [acceptCommand]; split <;> rfl

theorem acceptInit_cfg (s : State) : (acceptInit s).cfg = s.cfg := by
  rw [acceptInit]; split_ifs <;> rfl

theorem acceptDeinit_cfg (s : State) : (acceptDeinit s).cfg = s.cfg := by
  rw [acceptDeinit]; split <;> rfl

theorem Executed.keeps_cfg {i : Instr} {s t : State} (h : Executed s i t) : t.cfg = s.cfg := by
  cases h with
  | command op b1 b0 _ h =>
    obtain ⟨-, rfl⟩ := sendCommand_eq_next h
    rw [settle_cfg, acceptSend_cfg]
  | received bs _ h => exact feedAll_cfg h
  | encoded op b1 b0 => rfl
  | init h =>
    rcases execInit_eq_next h with ⟨-, rfl⟩ | ⟨-, -, rfl⟩
    · rfl
    · rw [settle_cfg, acceptInit_cfg]
  | deinit h =>
    rcases execDeinit_eq_next h with ⟨-, rfl⟩ | ⟨-, rfl⟩
    · rfl
    · rw [settle_cfg, acceptDeinit_cfg]

theorem acceptPins_cfg (p : PortIn) (s : State) : (acceptPins p s).cfg = s.cfg := by
  simp only [acceptPins]
  split_ifs
  · exact acceptCommand_cfg _ _ _ s
  · exact acceptDeinit_cfg s
  · rfl
  · exact acceptInit_cfg s
  · rfl

theorem clockEdge_cfg {p : PortIn} {s t : State} (h : clockEdge p s = .ok t) : t.cfg = s.cfg := by
  rcases clockEdge_cases h with ⟨-, rfl⟩ | ⟨-, u, hu, hend⟩
  · rfl
  · have hcfg : u.cfg = s.cfg := by
      split at hu
      · exact feed_cfg hu
      · cases hu; rfl
    rw [← hcfg]
    rcases hend with ⟨-, rfl⟩ | ⟨-, a, -, rfl⟩ | ⟨-, -, rfl⟩
    · exact acceptPins_cfg p u
    · exact (answer_frame a u).2.1
    · rfl

/-- Settles O45: no operation that an event runs writes the configuration. -/
theorem stepKeepsConfiguration : Obligations.StepKeepsConfiguration := by
  intro s t h
  cases step_eq_next h with
  | idle => rfl
  | executed rest h => exact (exec_eq_next h).keeps_cfg
  | replied a rest =>
    rw [replyStep]
    split
    · rfl
    · rw [settle_cfg]; exact (answer_frame a _).2.1
  | clocked rest h => exact clockEdge_cfg (s := takeEvent rest s) h

end Sys2Proof.Proofs
end

section
/-!
PROOFS. The encoding family (`30_encoding.md`): the two round trips between instructions and their words.
-/

namespace Sys2Proof.Proofs

open Sys2Proof.Machine

/-! ### From an instruction to its word and back -/

/-- R107, log 25: the frame of a SEND that no named row emits decodes to that SEND. -/
theorem decodeCommand_of_not_named {c : Cfg} {op hi lo : Byte} (h : ¬ NamedRow c op hi lo) :
    decodeCommand c op hi lo = .send op hi lo := by
  simp only [NamedRow, Cfg.zeroDataOpcodes, List.mem_cons, not_or] at h
  simp only [decodeCommand, decodeCommandMiddle, decodeCommandEnd]
  grind

/-- R104, R107: the frame of a canonical command decodes to that command. A row that the decoder tries before the command's own
has another opcode, the opcodes being distinct. -/
theorem decode_encode_command {c : Cfg} {i : Instr} (hdistinct : c.opcodes.Nodup) (hsends : sends i = true)
    (hcanon : i.Canonical c) (v : FramerView) : decode c v (encode c i) = .ok i := by
  have hlater := List.nodup_reverse.mpr hdistinct
  simp only [Cfg.opcodes, List.reverse_cons, List.reverse_nil, List.nil_append, List.cons_append, List.nodup_cons,
    List.mem_cons, not_or, List.not_mem_nil] at hdistinct hlater
  cases i with
  | send op hi lo => rw [encode, decode_tx, decodeCommand_of_not_named hcanon]
  | volSet v =>
    have hle : v ≤ volMax := hcanon
    rw [encode, decode_tx, clampVolume_of_le hle]
    simp [decodeCommand, decodeCommandMiddle, hlater, hle, -BitVec.not_le]
  | stop =>
    -- the decoder tries PLAY_FOLDER_FILE first, which the table of R104 lists after STOP
    simp [encode, decode_tx, decodeCommand, decodeCommandMiddle, decodeCommandEnd, hlater, hdistinct]
  | next | prev | playIndex | volUp | volDown => simp [encode, decode_tx, decodeCommand, hlater]
  | selectDevice | reset | play | pause => simp [encode, decode_tx, decodeCommand, decodeCommandMiddle, hlater]
  | playFolderFile | queryStatus | queryVolume | queryTrack =>
    simp [encode, decode_tx, decodeCommand, decodeCommandMiddle, decodeCommandEnd, hlater]
  | _ => cases hsends

/-- R100, R102, R98: the word of a received row decodes to that row. A response code that the decoder tries before the row's own is
another one, the codes being distinct (R101); a byte row is found by the framer state in which it applies. -/
theorem decode_encode_received {c : Cfg} {v : FramerView} {i : Instr} (hdistinct : c.responseCodes.Nodup)
    (hrec : receives i = true) (hwf : i.wellFormed c = true) (hrow : i.rowApplies c v = true) :
    decode c v (encode c i) = .ok i := by
  have hlater := List.nodup_reverse.mpr hdistinct
  simp only [Cfg.responseCodes, List.reverse_cons, List.reverse_nil, List.nil_append, List.cons_append, List.nodup_cons,
    List.mem_cons, not_or, List.not_mem_nil] at hlater
  cases i with
  | rspUnrecognized code f =>
    simp only [Instr.wellFormed, decide_eq_true_eq, Cfg.responseCodes, List.mem_cons, not_or] at hwf
    simp [encode, decode_rx, decodeResponse, hwf]
  | rspMediaInserted | rspPlayCompleted | rspError | rspAck | rspStatus | rspVolume | rspTrackCount | rspFolder
  | rspFolderTrackCount | rspFolderFile => simp [encode, decode_rx, decodeResponse, hlater]
  | byteSofIdle | byteStrayIdle | byteEofInframe | bytePayloadInframe | bytePayloadOverflow =>
    simp_all [encode, decode, decodeByte, Instr.wellFormed, Instr.rowApplies]
  | _ => cases hrec

/-- Settles O58: by the instruction's group; a word of format CMD24 is ENCODE's alone, and the two requests are no bytes. -/
theorem decodeInvertsEncode : Obligations.DecodeInvertsEncode := by
  intro c v i hadm hopcodes hwf hcanon hrow
  obtain ⟨-, -, -, hcodes, -, -⟩ := hadm
  rcases instr_groups i with hsends | hrec | ⟨op, hi, lo, rfl⟩ | rfl | rfl
  · exact decode_encode_command hopcodes hsends hcanon v
  · exact decode_encode_received hcodes hrec hwf hrow
  · rfl
  · rfl
  · rfl

/-! ### From a word to its instruction and back -/

/-- R107: the instruction's word is `r`, and the instruction is well formed and its row applies in the framer state. -/
structure RowOf (c : Cfg) (v : FramerView) (r : Request) (i : Instr) : Prop where
  word : encode c i = r
  wellFormed : i.wellFormed c = true
  applies : i.rowApplies c v = true

/-- R104: the row of an outbound frame. -/
theorem decodeCommand_row (c : Cfg) (v : FramerView) (op hi lo : Byte) :
    RowOf c v (.bytes (encodeFrame op hi lo)) (decodeCommand c op hi lo) := by
  obtain ⟨hwf, hrow⟩ := sends_instance (sends_decodeCommand c op hi lo) c v
  exact ⟨encode_decodeCommand c op hi lo, hwf, hrow⟩

/-- R100, R102: the row of an inbound frame is the one whose code the frame has; the fallback row is reached only by a code outside
the set. -/
theorem decodeResponse_row (c : Cfg) (v : FramerView) (code : Byte) (f : RxFields) :
    RowOf c v (.bytes (rxFrame code f)) (decodeResponse c code f) := by
  rw [decodeResponse]
  iterate 10
    refine iteInduction (motive := RowOf c v _) (fun hcode => ⟨by rw [hcode, encode], rfl, rfl⟩) fun _ => ?_
  exact ⟨rfl, by simp [Instr.wellFormed, Cfg.responseCodes, *], rfl⟩

/-- R98, R152 to R156: the row that a byte decodes to has the byte as its word, and its constraints are the tests that led to it. -/
theorem decodeByte_row (c : Cfg) (v : FramerView) (b : Byte) : RowOf c v (.bytes [b]) (decodeByte c v b) := by
  rw [decodeByte]
  cases hs : v.fstate with
  | idle =>
    by_cases hb : b = sof
    · simp only [hb, if_true]; exact ⟨rfl, rfl, by simp [Instr.rowApplies, hs]⟩
    · simp only [hb, if_false]; exact ⟨rfl, by simp [Instr.wellFormed, hb], by simp [Instr.rowApplies, hs]⟩
  | inFrame =>
    by_cases hb : b = eof
    · simp only [hb, if_true]; exact ⟨rfl, rfl, by simp [Instr.rowApplies, hs]⟩
    · by_cases hfull : v.cursor + 1 = c.cap
      · simp only [hb, hfull, if_true, if_false]
        exact ⟨rfl, by simp [Instr.wellFormed, hb], by simp [Instr.rowApplies, hs, hfull]⟩
      · simp only [hb, hfull, if_false]
        exact ⟨rfl, by simp [Instr.wellFormed, hb], by simp [Instr.rowApplies, hs, hfull]⟩

/-- Settles O59: a word decodes only as a request or in one of the four formats, the frames with their constant bytes in place. -/
theorem encodeInvertsDecode : Obligations.EncodeInvertsDecode := by
  intro c v r i h
  suffices hrow : RowOf c v r i from ⟨hrow.word, hrow.wellFormed, hrow.applies⟩
  rw [decode.eq_def] at h
  split at h
  · cases h; exact ⟨rfl, rfl, rfl⟩
  · cases h; exact ⟨rfl, rfl, rfl⟩
  · cases h; exact decodeByte_row c v _
  · cases h; exact ⟨rfl, rfl, rfl⟩
  · rename_i b0 b1 b2 op b4 hi lo b7
    split at h
    · rename_i hconst
      obtain ⟨rfl, rfl, rfl, rfl, rfl⟩ := hconst
      cases h
      exact decodeCommand_row c v op hi lo
    · cases h
  · rename_i b0 b1 b2 code b4 b5 b6 b7 b8 b9
    split at h
    · rename_i hmarkers
      obtain ⟨rfl, rfl⟩ := hmarkers
      cases h
      exact decodeResponse_row c v code ⟨b1, b2, b4, b5, b6, b7, b8⟩
    · cases h
  · cases h

/-- Settles O57: each word is a number, so decoding it under the default configuration is a computation. -/
theorem tableWordsDecode : Obligations.TableWordsDecode := by
  unfold Obligations.TableWordsDecode
  decide

end Sys2Proof.Proofs
end

section
/-!
PROOFS. The encoder family (`40_encoder.md`): SEND in each of its cases, the named commands, and what no command writes.
-/

namespace Sys2Proof.Proofs

open Sys2Proof.Machine

/-- Settles O3: the arm of ENCODE appends its frame to the host's results, and O1 spells the frame out. -/
theorem encodeReturnsFrame : Obligations.EncodeReturnsFrame := by
  intro op hi lo s
  rw [exec_encode, emitFrame, encodedFrameBytes]

/-! ### SEND, by the answer of the transport -/

/-- R122, R124: `sendCommand` answered `ok`, its frame spelled out. -/
theorem sendCommand_sentOk {s : State} {rest : List Answer} (op hi lo : Byte) (hready : cmdReady s = true)
    (hsend : s.cfg.hasSend = true) (hr : s.replies = .ok :: rest) :
    sendCommand op hi lo s = .next (SentOk op hi lo rest s) := by
  rw [sendCommand_ok op hi lo rest hready hsend hr, encodedFrameBytes, SentOk]

/-- R123: `sendCommand` answered `fail` is what O5 says of SEND. -/
theorem sendCommand_sentFail {s : State} {rest : List Answer} (op hi lo : Byte) (hready : cmdReady s = true)
    (hsend : s.cfg.hasSend = true) (hr : s.replies = .fail :: rest) :
    sendCommand op hi lo s = .next (SentFail op hi lo rest s) :=
  sendFailureLeavesState op hi lo rest s hready hsend hr

/-- R122 to R125, R141: all that a SEND can do. -/
inductive Sent (op hi lo : Byte) (s : State) : State → Prop
  /-- R125: no send capability -/
  | rejected : Sent op hi lo s (emitCommand .invalidParameter s)
  /-- R141: no answer yet -/
  | waiting : Sent op hi lo s (presentFrame op hi lo s)
  /-- R124 -/
  | committed (rest : List Answer) : Sent op hi lo s (SentOk op hi lo rest s)
  /-- R123 -/
  | failed (rest : List Answer) : Sent op hi lo s (SentFail op hi lo rest s)

theorem sendCommand_sent {op hi lo : Byte} {s t : State} (h : sendCommand op hi lo s = .next t) : Sent op hi lo s t := by
  obtain ⟨hready, -⟩ := sendCommand_eq_next h
  cases hsend : s.cfg.hasSend with
  | false => rw [sendCommand_noCapability op hi lo hready hsend] at h; cases h; exact .rejected
  | true =>
    match hr : s.replies with
    | [] => rw [sendCommand_waits op hi lo hready hsend hr] at h; cases h; exact .waiting
    | .ok :: rest => rw [sendCommand_sentOk op hi lo hready hsend hr] at h; cases h; exact .committed rest
    | .fail :: rest => rw [sendCommand_sentFail op hi lo hready hsend hr] at h; cases h; exact .failed rest

/-- Settles O4: SEND runs `sendCommand`, and this is its committing case. -/
theorem sendCommits : Obligations.SendCommits := by
  intro op hi lo rest s hready hsend hr
  rw [exec_send, sendCommand_sentOk op hi lo hready hsend hr]

/-- Settles O10: with no answer at hand the frame stays presented, and O1 spells it out. -/
theorem unansweredSendWaits : Obligations.UnansweredSendWaits := by
  intro op hi lo s hready hsend hr
  rw [exec_send, sendCommand_waits op hi lo hready hsend hr, presentFrame, encodedFrameBytes, logCall]

/-! ### The named commands -/

/-- Settles O7: each named command runs `sendCommand` with its opcode and data. -/
theorem namedCommandsCommit : Obligations.NamedCommandsCommit := by
  intro n d f m rest s hready hsend hr
  have hcommit (op hi lo : Byte) : sendCommand op hi lo s = .next (SentOk op hi lo rest s) :=
    sendCommand_sentOk op hi lo hready hsend hr
  exact ⟨hcommit _ _ _, hcommit _ _ _, hcommit _ _ _, hcommit _ _ _, hcommit _ _ _, hcommit _ _ _, hcommit _ _ _,
    hcommit _ _ _, hcommit _ _ _, hcommit _ _ _, hcommit _ _ _, hcommit _ _ _, hcommit _ _ _, hcommit _ _ _⟩

theorem exec_volSet (v : Byte) (s : State) : exec (.volSet v) s = sendCommand s.cfg.opVolSet 0 (clampVolume v) s := rfl

/-- Settles O8: the byte sent is the clamped operand, and with data high 0 the data value is that byte. -/
theorem volumeSetClamps : Obligations.VolumeSetClamps := by
  intro v s
  refine ⟨clampVolume v, clampVolume_toNat v, rfl, fun rest hready hsend hr => ?_⟩
  refine ⟨by rw [exec_volSet, sendCommand_sentOk _ _ _ hready hsend hr], ?_⟩
  calc (SentOk s.cfg.opVolSet 0 (clampVolume v) rest s).lastCmdData.toNat
      = 256 * (0 : Byte).toNat + (clampVolume v).toNat := joinBytes_toNat 0 (clampVolume v)
    _ = min v.toNat 30 := by simp [clampVolume_toNat]

/-! ### Every command -/

/-- Settles O6: every command is a SEND, which without the capability only returns its result. -/
theorem commandWithoutCapability : Obligations.CommandWithoutCapability := by
  intro i s hi hready hsend
  obtain ⟨op, b1, b0, hcommand⟩ := exec_sends hi s.cfg
  rw [hcommand s rfl, sendCommand_noCapability op b1 b0 hready hsend, emitCommand]

/-- Settles O9: every command is a SEND of some triple, and this is its failing case. -/
theorem commandFailureLeavesState : Obligations.CommandFailureLeavesState := by
  intro i rest s hi hready hsend hr
  obtain ⟨op, b1, b0, hcommand⟩ := exec_sends hi s.cfg
  exact ⟨op, b1, b0, by rw [hcommand s rfl, sendCommand_sentFail op b1 b0 hready hsend hr]⟩

/-- Settles O11: every command is a SEND, which looks at `cmd_ready` first. -/
theorem commandRefusedWhileNotReady : Obligations.CommandRefusedWhileNotReady := by
  intro i s hi hready
  obtain ⟨op, b1, b0, hcommand⟩ := exec_sends hi s.cfg
  rw [hcommand s rfl, sendCommand_notReady op b1 b0 hready]

/-- Settles O12: in none of its four cases does a SEND write one of these fields. -/
theorem commandsLeaveStatusAndFramer : Obligations.CommandsLeaveStatusAndFramer := by
  intro i s t hi h
  obtain ⟨op, b1, b0, hcommand⟩ := exec_sends hi s.cfg
  cases sendCommand_sent (hcommand s rfl ▸ h) with
  | rejected => exact ⟨⟨rfl, rfl, rfl, rfl⟩, rfl, rfl, rfl, rfl, rfl, rfl, rfl⟩
  | waiting => exact ⟨⟨rfl, rfl, rfl, rfl⟩, rfl, rfl, rfl, rfl, rfl, rfl, rfl⟩
  | committed rest => exact ⟨⟨rfl, rfl, rfl, rfl⟩, rfl, rfl, rfl, rfl, rfl, rfl, rfl⟩
  | failed rest => exact ⟨⟨rfl, rfl, rfl, rfl⟩, rfl, rfl, rfl, rfl, rfl, rfl, rfl⟩

/-! ### Who writes Device State -/

/-- R25: no arm of the parser clears `media`. -/
theorem dispatchResponse_media {code : Byte} {data : Half} {s : State} (h : s.media = true) :
    (dispatchResponse code data s).1.media = true := by
  rw [dispatchResponse]
  refine iteInduction (motive := fun r : State × ParseResult => r.1.media = true) (fun _ => rfl) fun _ => ?_
  iterate 9 refine iteInduction (motive := fun r : State × ParseResult => r.1.media = true) (fun _ => h) fun _ => ?_
  exact h

theorem feed_media {b : Byte} {s t : State} (h : feed b s = .ok t) (hm : s.media = true) : t.media = true := by
  rcases feed_continues_or_completes h with ⟨-, ht⟩ | ⟨-, rfl⟩
  · rw [ht]; exact hm
  · exact dispatchResponse_media (s := s.completed.recordResponse s.completed.code s.completed.data) hm

theorem feedAll_media {bs : List Byte} {s t : State} (h : feedAll bs s = .ok t) (hm : s.media = true) : t.media = true :=
  feedAll_keeps (P := fun u => u.media = true) feed_media h hm

/-- The fields that no received byte writes (R30 to R36, R29): the framer, the buffer, the fields of PARSE and FEED's own result are
all the others. -/
structure ReceptionFrame (s t : State) : Prop where
  lastCmdOp : t.lastCmdOp = s.lastCmdOp
  lastCmdData : t.lastCmdData = s.lastCmdData
  hstate : t.hstate = s.hstate
  txBusy : t.txBusy = s.txBusy
  txCmd : t.txCmd = s.txCmd
  seq : t.seq = s.seq
  cfg : t.cfg = s.cfg
  agenda : t.agenda = s.agenda
  replies : t.replies = s.replies
  txLog : t.txLog = s.txLog
  hostLog : t.hostLog = s.hostLog
  calls : t.calls = s.calls

theorem feed_receptionFrame {b : Byte} {s t u : State} (h : feed b t = .ok u) (hs : ReceptionFrame s t) : ReceptionFrame s u := by
  obtain ⟨h1, h2, h3, h4, h5, h6, h7, h8, h9, h10, h11, h12⟩ := hs
  rw [feed_frame h]
  exact ⟨h1, h2, h3, h4, h5, h6, h7, h8, h9, h10, h11, h12⟩

theorem feedAll_receptionFrame {bs : List Byte} {s t : State} (h : feedAll bs s = .ok t) : ReceptionFrame s t :=
  feedAll_keeps feed_receptionFrame h ⟨rfl, rfl, rfl, rfl, rfl, rfl, rfl, rfl, rfl, rfl, rfl, rfl⟩

/-- Settles O46: a command leaves both fields, and a received byte leaves `hstate` and never clears `media`. -/
theorem mediaAndLifecycleAreSticky : Obligations.MediaAndLifecycleAreSticky := by
  intro i s t hinit hdeinit h
  cases exec_eq_next h with
  | command op b1 b0 hi _ =>
    obtain ⟨⟨-, -, -, hmedia⟩, -, -, -, hstate, -⟩ := commandsLeaveStatusAndFramer i s t hi h
    exact ⟨hmedia.trans, hstate⟩
  | received bs _ hfeed => exact ⟨feedAll_media hfeed, (feedAll_receptionFrame hfeed).hstate⟩
  | encoded op b1 b0 => exact ⟨id, rfl⟩
  | init _ => exact absurd rfl hinit
  | deinit _ => exact absurd rfl hdeinit

/-- Settles O47: received bytes leave the last-command fields, commands the status fields, ENCODE both. -/
theorem deviceStateWriters : Obligations.DeviceStateWriters := by
  intro i s t hinit hdeinit h
  cases exec_eq_next h with
  | command op b1 b0 hi _ =>
    exact ⟨fun hnot => absurd hi (by simp [hnot]), fun _ => (commandsLeaveStatusAndFramer i s t hi h).1⟩
  | received bs hi hfeed =>
    have hframe := feedAll_receptionFrame hfeed
    exact ⟨fun _ => ⟨hframe.lastCmdOp, hframe.lastCmdData⟩, fun hnot => absurd hi (by simp [hnot])⟩
  | encoded op b1 b0 => exact ⟨fun _ => ⟨rfl, rfl⟩, fun _ => ⟨rfl, rfl, rfl, rfl⟩⟩
  | init _ => exact absurd rfl hinit
  | deinit _ => exact absurd rfl hdeinit

/-- Settles O24: FEED* answers under the invariant, and no FEED writes any of these fields. -/
theorem receptionAlwaysRuns : Obligations.ReceptionAlwaysRuns := by
  intro i s hi hrec
  obtain ⟨bs, hbs⟩ := exec_receives hrec s
  obtain ⟨t, ht⟩ := feedAll_total_of_Inv bs hi
  have hframe := feedAll_receptionFrame ht
  exact ⟨t, by rw [hbs, ht, outcomeOf], hframe.txBusy, hframe.txCmd, hframe.seq, hframe.hstate, hframe.lastCmdOp,
    hframe.lastCmdData, hframe.txLog, hframe.hostLog, hframe.calls, hframe.cfg⟩

end Sys2Proof.Proofs
end

section
/-!
PROOFS. The framer and parser families (`41_framer.md`, `42_parser.md`): each byte row, byte sequences, and the inbound frames.
-/

namespace Sys2Proof.Proofs

open Sys2Proof.Machine

/-! ### A start marker and a payload byte -/

theorem exec_byteSofIdle (s : State) : exec .byteSofIdle s = outcomeOf (feed sof s) := rfl

theorem exec_bytePayloadInframe (b : Byte) (s : State) : exec (.bytePayloadInframe b) s = outcomeOf (feed b s) := rfl

theorem exec_bytePayloadOverflow (b : Byte) (s : State) : exec (.bytePayloadOverflow b) s = outcomeOf (feed b s) := rfl

/-- Settles O13: in Idle FEED of the start marker takes the start arm, which writes cell 0. -/
theorem startMarkerOpensFrame : Obligations.StartMarkerOpensFrame := by
  intro s hidle hcap hwf
  exact ⟨_, by rw [exec_byteSofIdle, feed_start hidle (by omega), outcomeOf], fun a => Memory.read_write 0 a sof hwf, rfl⟩

/-- Settles O15: with room left FEED of a payload byte takes the append arm. -/
theorem payloadByteAppended : Obligations.PayloadByteAppended := by
  intro b s hin hb hroom hwf
  exact ⟨_, by rw [exec_bytePayloadInframe, feed_append hin (by omega) hb (by omega), outcomeOf],
    fun a => Memory.read_write s.cursor a b hwf, rfl⟩

/-- Settles O16: on the last cell FEED of a payload byte takes the overflow arm. -/
theorem overflowResynchronises : Obligations.OverflowResynchronises := by
  intro b s hin hb hfull hwf
  exact ⟨_, by rw [exec_bytePayloadOverflow, feed_overflow hin hb hfull, outcomeOf],
    fun a => Memory.read_write s.cursor a b hwf, rfl⟩

/-! ### Completion -/

/-- R158, R183: what a completion step returns for a response code. -/
def completionResult (c : Cfg) (code : Byte) : FeedResult := if code ∈ c.responseCodes then .frameReady else .frameError

theorem completionResult_ready {c : Cfg} {code : Byte} (h : code ∈ c.responseCodes) : completionResult c code = .frameReady :=
  if_pos h

theorem completionResult_error {c : Cfg} {code : Byte} (h : code ∉ c.responseCodes) : completionResult c code = .frameError :=
  if_neg h

/-- R154, R158, R171: PARSE and the result of a completion step, but for the status fields, which the arms write. -/
theorem dispatched_eq (code : Byte) (data : Half) (s : State) :
    dispatched code data s =
      { s with
        volume := (dispatched code data s).volume, track := (dispatched code data s).track,
        status := (dispatched code data s).status, media := (dispatched code data s).media,
        lastRspCode := code, lastRspData := data, lastRspValid := true,
        feedLog := s.feedLog ++ [completionResult s.cfg code],
        pulses := { s.pulses with feedDone := some (completionResult s.cfg code) } } := by
  have hlog := dispatched_feedLog code data s
  have hpulses := dispatched_pulses code data s
  rw [feedResultOf_dispatch] at hlog hpulses
  rw [completionResult, ← hlog, ← hpulses]
  exact dispatched_frame code data s

theorem completed_code {s : State} (h : s.buf.wf = true) :
    s.completed.code = if s.cursor = 3 then eof else s.buf.read 3 := by
  rw [State.code, read_completed h]
  simp only [eq_comm]

theorem completed_data_toNat {s : State} (h : s.buf.wf = true) :
    s.completed.data.toNat =
      256 * (if s.cursor = 5 then eof else s.buf.read 5).toNat + (if s.cursor = 6 then eof else s.buf.read 6).toNat := by
  rw [State.data, joinBytes_toNat, read_completed h, read_completed h]
  simp only [eq_comm]

/-- R154: in a frame the row of the end marker completes it. -/
theorem exec_byteEofInframe_complete {s : State} (hin : s.fstate = .inFrame) (hadm : s.cfg.Admissible)
    (hcur : s.cursor < s.cfg.cap) :
    exec .byteEofInframe s = .next (dispatched s.completed.code s.completed.data s.completed) := by
  have hcap : 10 ≤ s.cfg.cap := hadm.1
  rw [exec_byteEofInframe, feed_complete hin hcur (by omega), outcomeOf]

/-- Settles O17: the completion step dispatches the code and the data that stand in the cells after the append. -/
theorem endMarkerCompletes : Obligations.EndMarkerCompletes := by
  intro s hin hadm hcur hwf
  refine ⟨_, completionResult s.cfg s.completed.code, exec_byteEofInframe_complete hin hadm hcur, ?_, ?_, ?_, ?_, ?_⟩
  · rw [dispatched_code]; rfl
  · rw [dispatched_buf]; exact read_completed hwf
  · rw [dispatched_code]; exact completed_code hwf
  · rw [dispatched_data]; exact completed_data_toNat hwf
  · refine (congrArg (fun t : State => { t with buf := s.buf }) (dispatched_eq _ _ s.completed)).trans ?_
    rw [dispatched_code, dispatched_data]
    rfl

/-- R101 (b). -/
theorem distinct_of_admissible {c : Cfg} (h : c.Admissible) : c.responseCodes.Nodup := h.2.2.2.1

/-- R101 (a). -/
theorem rcVolume_of_admissible {c : Cfg} (h : c.Admissible) : c.rcVolume = 0x43#8 := h.2.1

/-- R101 (a). -/
theorem rcTrackCount_of_admissible {c : Cfg} (h : c.Admissible) : c.rcTrackCount = 0x48#8 := h.2.2.1

/-- R183: a code outside the set is none of the five whose arms write a status field. -/
theorem StatusByCode.of_unrecognised {code : Byte} {data : Half} {s t : State} (h : StatusByCode code data s t)
    (hcode : code ∉ s.cfg.responseCodes) : StatusFields t s.volume s.track s.status s.media := by
  obtain ⟨hvolume, htrack, hstatus, hmedia⟩ := h
  simp only [Cfg.responseCodes, List.mem_cons, not_or] at hcode
  exact ⟨by simpa [hcode] using hvolume, by simpa [hcode] using htrack, by simpa [hcode] using hstatus,
    by simpa [hcode] using hmedia⟩

/-- Settles O19: the completion of O17, in which the arm of an unrecognised code writes nothing. -/
theorem unrecognisedCodeTouchesNoStatus : Obligations.UnrecognisedCodeTouchesNoStatus := by
  intro s hin hadm hcur hwf hcode
  have hread : s.completed.code ∉ s.cfg.responseCodes := by rw [completed_code hwf]; exact hcode
  obtain ⟨hvolume, htrack, hstatus, hmedia⟩ :=
    (dispatched_statusByCode (s := s.completed) _ _ (distinct_of_admissible hadm)).of_unrecognised hread
  refine ⟨_, exec_byteEofInframe_complete hin hadm hcur, ?_, ?_, ?_⟩
  · rw [dispatched_buf]; exact read_completed hwf
  · rw [dispatched_data]; exact completed_data_toNat hwf
  · have heq := dispatched_eq s.completed.code s.completed.data s.completed
    have hresult : completionResult s.completed.cfg s.completed.code = .frameError := completionResult_error hread
    rw [hvolume, htrack, hstatus, hmedia, hresult] at heq
    refine (congrArg (fun t : State => { t with buf := s.buf, lastRspData := 0 }) heq).trans ?_
    rw [completed_code hwf]
    rfl

/-! ### Byte sequences -/

/-- R152, R162: bytes without a start marker, in Idle: each is discarded and returns Continue. -/
theorem feedAll_stray {bs : List Byte} {s : State} (hidle : s.fstate = .idle) (hb : sof ∉ bs) :
    feedAll bs s = .ok
      { s with
        feedLog := s.feedLog ++ List.replicate bs.length .cont,
        pulses := if bs = [] then s.pulses else { s.pulses with feedDone := some .cont } } := by
  induction bs generalizing s with
  | nil => simp
  | cons b bs ih =>
    simp only [List.mem_cons, not_or] at hb
    rw [feedAll_cons bs (feed_stray hidle (Ne.symm hb.1)), ih (by exact hidle) hb.2]
    simp only [emitFeed, List.length_cons, List.replicate_succ, List.append_assoc, List.singleton_append, reduceCtorEq,
      if_false, ite_self]

/-- Settles O21: each of the bytes takes the stray arm. -/
theorem strayBytesChangeNothing : Obligations.StrayBytesChangeNothing := by
  intro bs s hidle hb
  exact ⟨_, feedAll_stray hidle hb, rfl, rfl⟩

/-- R163: a byte in a frame ends it, or the cursor rises by one. -/
theorem feed_in_frame {b : Byte} {s t : State} (h : feed b s = .ok t) (hin : s.fstate = .inFrame) :
    (t.fstate = .idle ∧ t.cursor = 0) ∨ (t.fstate = .inFrame ∧ t.cursor = s.cursor + 1) := by
  rcases feed_cases h with ⟨hs, -⟩ | ⟨hs, -⟩ | ⟨-, -, -, -, rfl⟩ | ⟨-, -, -, -, rfl⟩ | ⟨-, -, -, -, rfl⟩
  · rw [hin] at hs; cases hs
  · rw [hin] at hs; cases hs
  · rw [dispatched_frame]; exact .inl ⟨rfl, rfl⟩
  · exact .inl ⟨rfl, rfl⟩
  · exact .inr ⟨hin, rfl⟩

/-- Settles O22: each byte that does not end the frame uses one of the CAP - c cells left. -/
theorem framerReturnsToIdle : Obligations.FramerReturnsToIdle := by
  intro bs
  induction bs with
  | nil =>
    intro s hi _ hlen
    have hcur : s.cursor < s.cfg.cap := hi.framer.2
    simp only [List.length_nil] at hlen
    omega
  | cons b bs ih =>
    intro s hi hin hlen
    simp only [List.length_cons] at hlen ⊢
    obtain ⟨t, ht⟩ := feed_total_of_Inv b hi
    rcases feed_in_frame ht hin with ⟨hidle, hcur⟩ | ⟨hin', hcur⟩
    · exact ⟨1, t, by omega, by rw [List.take_succ_cons, List.take_zero, feedAll_cons [] ht, feedAll_nil], hidle, hcur⟩
    · obtain ⟨k, u, hk, hu, hend⟩ := ih t (feed_keeps_Inv ht hi) hin' (by rw [feed_cfg ht, hcur]; omega)
      exact ⟨k + 1, u, by omega, by rw [List.take_succ_cons, feedAll_cons _ ht, hu], hend⟩

/-- R155, R160: payload bytes that fill the buffer to its last cell: the last one ends the frame without PARSE. -/
theorem feedAll_fill {bs : List Byte} {s : State} (hin : s.fstate = .inFrame) (hb : eof ∉ bs) (hcur : s.cursor < s.cfg.cap)
    (hfull : s.cursor + bs.length = s.cfg.cap) :
    feedAll bs s = .ok
      { s with
        buf := s.buf.writeAll s.cursor bs, cursor := 0, fstate := .idle,
        feedLog := s.feedLog ++ List.replicate bs.length .cont, pulses := { s.pulses with feedDone := some .cont } } := by
  induction bs generalizing s with
  | nil => simp only [List.length_nil] at hfull; omega
  | cons b bs ih =>
    simp only [List.mem_cons, not_or] at hb
    simp only [List.length_cons] at hfull
    by_cases hlast : s.cursor + 1 = s.cfg.cap
    · obtain rfl : bs = [] := List.length_eq_zero_iff.mp (by omega)
      rw [feedAll_cons [] (feed_overflow hin (Ne.symm hb.1) hlast), feedAll_nil]
      rfl
    · rw [feedAll_cons bs (feed_append hin hcur (Ne.symm hb.1) hlast), ih (by exact hin) hb.2 (by simp; omega) (by simp; omega)]
      simp only [emitFeed, Memory.writeAll, List.length_cons, List.replicate_succ, List.append_assoc, List.singleton_append]

/-- R18: the first nine bytes of a nominal frame hold no end marker. -/
theorem eof_notMem_take_rxFrame {code : Byte} {f : RxFields} (hn : f.Nominal code) {m : Nat} (hm : m ≤ 9) :
    eof ∉ (rxFrame code f).take m := by
  obtain ⟨h1, h2, h3, h4, h5, h6, h7, h8⟩ := hn
  have hnine : eof ∉ (rxFrame code f).take 9 := by
    simp [rxFrame, show eof ≠ sof by decide, Ne.symm h1, Ne.symm h2, Ne.symm h3, Ne.symm h4, Ne.symm h5, Ne.symm h6, Ne.symm h7,
      Ne.symm h8]
  exact fun h => hnine ((List.take_sublist_take_left hm).mem h)

/-- Settles O23: the start marker opens the frame, the bytes up to the last cell overflow it, and the residue is stray. -/
theorem truncatedFrameSwallowsNext : Obligations.TruncatedFrameSwallowsNext := by
  intro bs code f s hi hidle hb hn hopen hover hresidue
  have hcur : s.cursor = 0 := hi.framer.1.mp hidle
  generalize hm : s.cfg.cap - (1 + bs.length) = m at hresidue
  have hlen : ((rxFrame code f).take m).length = m := by simp; omega
  have hpayload : eof ∉ bs ++ (rxFrame code f).take m := by
    simp only [List.mem_append, not_or]
    exact ⟨hb, eof_notMem_take_rxFrame hn (by omega)⟩
  have hsplit : sof :: bs ++ rxFrame code f = sof :: ((bs ++ (rxFrame code f).take m) ++ (rxFrame code f).drop m) := by simp
  rw [hsplit, feedAll_cons _ (feed_start hidle (by omega)), feedAll_append,
    feedAll_fill (by rfl) hpayload (by simp; omega) (by simp; omega)]
  refine ⟨_, feedAll_stray (by rfl) hresidue, ?_, ?_⟩
  · have hcount : 11 + bs.length =
        (bs ++ (rxFrame code f).take m).length + ((rxFrame code f).drop m).length + 1 := by simp; omega
    simp only [emitFeed, List.append_assoc, List.nil_append, List.cons_append, List.replicate_append_replicate, hcount,
      List.replicate_succ]
  · show { s with cursor := 0, fstate := .idle } = s
    rw [← hcur, ← hidle]

/-! ### The inbound frames, from Idle -/

/-- R161, R171, R172: a nominal frame from Idle, but for what the arm of its code writes. -/
theorem feedAll_rxFrame {s : State} {code : Byte} {f : RxFields} (hidle : s.fstate = .idle) (hadm : s.cfg.Admissible)
    (hwf : s.buf.wf = true) (hn : f.Nominal code) :
    ∃ t, feedAll (rxFrame code f) s = .ok t ∧ FrameReceived code f (completionResult s.cfg code) s t ∧
      StatusByCode code (joinBytes f.hi f.lo) s t := by
  obtain ⟨hvolume, htrack, hstatus, hmedia⟩ :=
    dispatched_statusByCode (s := s.received code f) code (joinBytes f.hi f.lo) (distinct_of_admissible hadm)
  refine ⟨_, feedAll_nominal hidle hadm.1 hwf hn, ⟨fun a => ?_, ?_⟩, ⟨hvolume, htrack, hstatus, hmedia⟩⟩
  · rw [dispatched_buf]
    have hread := Memory.read_writeAll 0 a (rxFrame code f) hwf
    rw [rxFrame_length] at hread
    simp only [Nat.zero_le, true_and, Nat.zero_add, Nat.sub_zero] at hread
    exact hread
  · exact congrArg (fun t : State => { t with buf := s.buf }) (dispatched_eq code _ (s.received code f))

/-- R101 (b): the codes whose arms write a status field differ from one another and from the five others. -/
theorem responseCodes_ne {c : Cfg} (h : c.Admissible) : c.responseCodes.Pairwise fun a b => a ≠ b ∧ b ≠ a :=
  (distinct_of_admissible h).imp fun hne => ⟨hne, hne.symm⟩

/-- R173 to R182: by recognised code, the values of `volume`, `track`, `status` and `media` after a response with this data. -/
def statusTable (data : Half) (s : State) : List (Byte × Half × Half × Half × Bool) :=
  [(s.cfg.rcMediaInserted, s.volume, s.track, s.status, true),
   (s.cfg.rcPlayCompleted, s.volume, 0, s.status, s.media),
   (s.cfg.rcError, s.volume, s.track, s.status, s.media),
   (s.cfg.rcAck, s.volume, s.track, s.status, s.media),
   (s.cfg.rcStatus, s.volume, if data = 0 then 0 else s.track, data, s.media),
   (s.cfg.rcVolume, data, s.track, s.status, s.media),
   (s.cfg.rcTrackCount, s.volume, data, s.status, s.media),
   (s.cfg.rcFolder, s.volume, s.track, s.status, s.media),
   (s.cfg.rcFolderTrackCount, s.volume, s.track, s.status, s.media),
   (s.cfg.rcFolderFile, s.volume, s.track, s.status, s.media)]

theorem code_of_statusTable {data : Half} {s : State} {code : Byte} {volume track status : Half} {media : Bool}
    (hrow : (code, volume, track, status, media) ∈ statusTable data s) : code ∈ s.cfg.responseCodes :=
  List.mem_map_of_mem (f := Prod.fst) hrow

/-- The table says what the dispatch does, the codes being distinct (R101 b). -/
theorem statusFields_of_row {data : Half} {s t : State} {code : Byte} {volume track status : Half} {media : Bool}
    (hadm : s.cfg.Admissible) (hrow : (code, volume, track, status, media) ∈ statusTable data s)
    (h : StatusByCode code data s t) : StatusFields t volume track status media := by
  have hne := responseCodes_ne hadm
  simp only [Cfg.responseCodes, List.pairwise_cons, List.forall_mem_cons] at hne
  obtain ⟨hvolume, htrack, hstatus, hmedia⟩ := h
  simp only [statusTable, List.mem_cons, List.not_mem_nil, or_false, Prod.mk.injEq] at hrow
  rcases hrow with ⟨rfl, rfl, rfl, rfl, rfl⟩ | ⟨rfl, rfl, rfl, rfl, rfl⟩ | ⟨rfl, rfl, rfl, rfl, rfl⟩ | ⟨rfl, rfl, rfl, rfl, rfl⟩ |
    ⟨rfl, rfl, rfl, rfl, rfl⟩ | ⟨rfl, rfl, rfl, rfl, rfl⟩ | ⟨rfl, rfl, rfl, rfl, rfl⟩ | ⟨rfl, rfl, rfl, rfl, rfl⟩ |
    ⟨rfl, rfl, rfl, rfl, rfl⟩ | ⟨rfl, rfl, rfl, rfl, rfl⟩
  all_goals
    exact ⟨by simpa [hne] using hvolume, by simpa [hne] using htrack, by simpa [hne] using hstatus, by simpa [hne] using hmedia⟩

/-- R161, R171 to R182: a nominal frame of a recognised code. -/
theorem recognised_frame {s : State} {code : Byte} {f : RxFields} {volume track status : Half} {media : Bool}
    (hrow : (code, volume, track, status, media) ∈ statusTable (joinBytes f.hi f.lo) s) (hidle : s.fstate = .idle)
    (hadm : s.cfg.Admissible) (hwf : s.buf.wf = true) (hn : f.Nominal code) :
    ∃ t, outcomeOf (feedAll (rxFrame code f) s) = .next t ∧ FrameReceived code f .frameReady s t ∧
      StatusFields t volume track status media := by
  obtain ⟨t, ht, hrec, hstatus⟩ := feedAll_rxFrame hidle hadm hwf hn
  rw [completionResult_ready (code_of_statusTable hrow)] at hrec
  exact ⟨t, by rw [ht, outcomeOf], hrec, statusFields_of_row hadm hrow hstatus⟩

/-- Settles O25: the table's row of media-inserted. -/
theorem mediaInsertedFrame : Obligations.MediaInsertedFrame := by
  intro f s hidle hadm hwf hn
  exact recognised_frame (by simp [statusTable]) hidle hadm hwf hn

/-- Settles O26: the table's row of play-completed. -/
theorem playCompletedFrame : Obligations.PlayCompletedFrame := by
  intro f s hidle hadm hwf hn
  exact recognised_frame (by simp [statusTable]) hidle hadm hwf hn

/-- R13: a data value is 0 exactly when both its bytes are. -/
theorem joinBytes_eq_zero {hi lo : Byte} : joinBytes hi lo = 0 ↔ hi = 0 ∧ lo = 0 := by
  constructor
  · intro h
    exact ⟨by rw [← hiByte_join hi lo, h]; rfl, by rw [← loByte_join hi lo, h]; rfl⟩
  · rintro ⟨rfl, rfl⟩
    exact joinBytes_zero

/-- Settles O27: the test on the data is a test on its two bytes. -/
theorem statusFrame : Obligations.StatusFrame := by
  intro f s hidle hadm hwf hn
  simp only [← joinBytes_eq_zero]
  exact recognised_frame (by simp [statusTable]) hidle hadm hwf hn

/-- Settles O28: code 0x43 is the row's (R101 a), and the volume is the whole data value. -/
theorem volumeFrame : Obligations.VolumeFrame := by
  intro f s hidle hadm hwf hn
  have hcode := rcVolume_of_admissible hadm
  rw [← hcode] at hn ⊢
  obtain ⟨t, ht, hrec, hvolume, hrest⟩ := recognised_frame (volume := joinBytes f.hi f.lo) (track := s.track) (status := s.status)
    (media := s.media) (by simp [statusTable]) hidle hadm hwf hn
  exact ⟨t, ht, hrec, ⟨hvolume, hrest⟩, by rw [hvolume, joinBytes_toNat]⟩

/-- Settles O29: code 0x48 is the row's (R101 a), and the track is the whole data value. -/
theorem trackCountFrame : Obligations.TrackCountFrame := by
  intro f s hidle hadm hwf hn
  have hcode := rcTrackCount_of_admissible hadm
  rw [← hcode] at hn ⊢
  obtain ⟨t, ht, hrec, hvolume, htrack, hrest⟩ := recognised_frame (volume := s.volume) (track := joinBytes f.hi f.lo)
    (status := s.status) (media := s.media) (by simp [statusTable]) hidle hadm hwf hn
  exact ⟨t, ht, hrec, ⟨hvolume, htrack, hrest⟩, by rw [htrack, joinBytes_toNat]⟩

/-- Settles O30: the five rows of the table that keep all four fields. -/
theorem recordedOnlyFrames : Obligations.RecordedOnlyFrames := by
  intro f s hidle hadm hwf
  simp only [List.forall_mem_cons, List.not_mem_nil, false_implies, implies_true, and_true]
  have hrow {code : Byte} (h : (code, s.volume, s.track, s.status, s.media) ∈ statusTable (joinBytes f.hi f.lo) s)
      (hn : f.Nominal code) := recognised_frame h hidle hadm hwf hn
  exact ⟨hrow (by simp [statusTable]), hrow (by simp [statusTable]), hrow (by simp [statusTable]), hrow (by simp [statusTable]),
    hrow (by simp [statusTable])⟩

/-- Settles O31: the frame is received like any other, and the fallback arm writes no status field. -/
theorem unrecognisedFrame : Obligations.UnrecognisedFrame := by
  intro code f s hidle hadm hwf hn hcode
  obtain ⟨t, ht, hrec, hstatus⟩ := feedAll_rxFrame hidle hadm hwf hn
  rw [completionResult_error hcode] at hrec
  exact ⟨t, congrArg outcomeOf ht, hrec, hstatus.of_unrecognised hcode⟩

end Sys2Proof.Proofs
end

section
/-!
PROOFS. An end marker inside a frame's data (`42_parser.md`, R186, R256).
-/

namespace Sys2Proof.Proofs

open Sys2Proof.Machine

/-- R151, R153: `s` after a start marker and payload bytes with room left after them: the frame is in progress. -/
def opened (bs : List Byte) (s : State) : State :=
  { s with
    buf := s.buf.writeAll 0 (sof :: bs), cursor := 1 + bs.length, fstate := .inFrame,
    feedLog := s.feedLog ++ List.replicate (bs.length + 1) .cont, pulses := { s.pulses with feedDone := some .cont } }

theorem feedAll_opened {bs : List Byte} {s : State} (hidle : s.fstate = .idle) (hb : eof ∉ bs)
    (hroom : 1 + bs.length < s.cfg.cap) : feedAll (sof :: bs) s = .ok (opened bs s) := by
  rw [feedAll_cons bs (feed_start hidle (by omega)), feedAll_payload (by rfl) hb (by exact hroom)]
  simp only [opened, emitFeed, Memory.writeAll, List.append_assoc, List.singleton_append, List.replicate_succ, ite_self]

/-- R154, R186: the cells that PARSE sees where the end marker comes next: the frame's bytes, the marker, and beyond it the cells
of earlier frames. -/
theorem read_completed_opened (bs : List Byte) {s : State} (hwf : s.buf.wf = true) (a : Nat) :
    (opened bs s).completed.buf.read a =
      if a = 1 + bs.length then eof else if a < 1 + bs.length then (sof :: bs).getD a 0 else s.buf.read a := by
  have hread := Memory.read_writeAll 0 a (sof :: bs) hwf
  simp only [Nat.zero_le, true_and, Nat.zero_add, Nat.sub_zero, List.length_cons, Nat.add_comm bs.length] at hread
  rw [read_completed (Memory.writeAll_wf hwf)]
  simp only [opened, hread]

/-- R154: the end marker after a start marker and payload bytes. -/
theorem feed_eof_opened (bs : List Byte) {s : State} (hroom : 1 + bs.length < s.cfg.cap) (hcap : 6 < s.cfg.cap) :
    feed eof (opened bs s) =
      .ok (dispatched (opened bs s).completed.code (opened bs s).completed.data (opened bs s).completed) :=
  feed_complete rfl hroom hcap

theorem dispatched_fstate (code : Byte) (data : Half) (s : State) : (dispatched code data s).fstate = s.fstate := by
  rw [dispatched_frame]

theorem dispatched_cursor (code : Byte) (data : Half) (s : State) : (dispatched code data s).cursor = s.cursor := by
  rw [dispatched_frame]

theorem exec_rspTrackCount (f : RxFields) (s : State) :
    exec (.rspTrackCount f) s = outcomeOf (feedAll (rxFrame s.cfg.rcTrackCount f) s) := rfl

/-- R256: the bytes of a track-count report between the start marker and data high. -/
def trackCountHeader (f : RxFields) (s : State) : List Byte := [f.version, f.length, s.cfg.rcTrackCount, f.feedback]

/-- R256: a track-count report with the end marker at data high, as FEED* runs it: a completed frame, then four stray bytes. -/
theorem exec_rspTrackCount_eof {f : RxFields} {s u : State} (hhi : f.hi = eof)
    (hopen : feedAll (sof :: trackCountHeader f s) s = .ok (opened (trackCountHeader f s) s))
    (hcomplete : feed eof (opened (trackCountHeader f s) s) = .ok u) (hidle : u.fstate = .idle)
    (hstray : sof ∉ [f.lo, f.rsv7, f.rsv8, eof]) :
    exec (.rspTrackCount f) s = .next
      { u with
        feedLog := u.feedLog ++ List.replicate 4 .cont, pulses := { u.pulses with feedDone := some .cont } } := by
  have hsplit : rxFrame s.cfg.rcTrackCount f = (sof :: trackCountHeader f s) ++ eof :: [f.lo, f.rsv7, f.rsv8, eof] := by
    rw [rxFrame, hhi]; rfl
  rw [exec_rspTrackCount, hsplit, feedAll_append, hopen]
  simp only []
  rw [feedAll_cons _ hcomplete, feedAll_stray hidle hstray]
  rfl

/-- Settles O32: the five bytes before data high open the frame, the end marker completes it with the stale cell 6, and the rest is
stray. -/
theorem endMarkerInDataEndsFrame : Obligations.EndMarkerInDataEndsFrame := by
  intro f s hidle hadm hwf hversion hlength hfeedback hhi hlo h7 h8
  have hcap : 10 ≤ s.cfg.cap := hadm.1
  have hroom : 1 + (trackCountHeader f s).length < s.cfg.cap := by show 1 + 4 < s.cfg.cap; omega
  have hcode := rcTrackCount_of_admissible hadm
  have hcodeEof : eof ≠ s.cfg.rcTrackCount := by rw [hcode]; decide
  have hopen := feedAll_opened hidle
    (by simp [trackCountHeader, hversion.symm, hlength.symm, hcodeEof, hfeedback.symm] : eof ∉ trackCountHeader f s) hroom
  have hread := read_completed_opened (trackCountHeader f s) hwf
  have hcomplete := feed_eof_opened (trackCountHeader f s) hroom (by omega)
  generalize hu : dispatched _ _ _ = u at hcomplete
  have hcell3 : (opened (trackCountHeader f s) s).completed.code = s.cfg.rcTrackCount := hread 3
  have hcells : (opened (trackCountHeader f s) s).completed.data = joinBytes eof (s.buf.read 6) :=
    congrArg₂ joinBytes (hread 5) (hread 6)
  rw [hcell3, hcells] at hu
  have hidle' : u.fstate = .idle := by rw [← hu, dispatched_fstate]; rfl
  obtain ⟨-, htrack, -, -⟩ := dispatched_statusByCode (s := (opened (trackCountHeader f s) s).completed) s.cfg.rcTrackCount
    (joinBytes eof (s.buf.read 6)) (distinct_of_admissible hadm)
  refine ⟨_, exec_rspTrackCount_eof hhi hopen hcomplete hidle' (by simp [hlo.symm, h7.symm, h8.symm]; decide), ?_, ?_, ?_, hidle',
    ?_, ?_, ?_⟩
  · exact (hu ▸ htrack).trans (if_pos rfl)
  · rw [← hcode, ← hu]; exact dispatched_code _ _ _
  · rw [← hu]; exact dispatched_data _ _ _
  · rw [← hu]; exact dispatched_cursor _ _ _
  · have hlog : u.feedLog = s.feedLog ++ List.replicate 5 .cont ++ [.frameReady] := by
      rw [← hu, dispatched_feedLog, feedResultOf_dispatch, if_pos (by simp [Cfg.responseCodes, State.completed, opened])]
      rfl
    exact congrArg (· ++ List.replicate 4 .cont) hlog
  · intro a ha
    have hbeyond : ¬ a < 1 + (trackCountHeader f s).length ∧ a ≠ 1 + (trackCountHeader f s).length := by
      show ¬ a < 1 + 4 ∧ a ≠ 1 + 4
      omega
    have hbuf : u.buf = (opened (trackCountHeader f s) s).completed.buf := by rw [← hu, dispatched_buf]
    calc u.buf.read a = (opened (trackCountHeader f s) s).completed.buf.read a := by rw [hbuf]
      _ = s.buf.read a := by rw [hread, if_neg hbeyond.2, if_neg hbeyond.1]

end Sys2Proof.Proofs
end

section
/-!
PROOFS. The lifecycle family (`43_lifecycle.md`): what each answer does at each position of the sequencer, said once, and INIT and
DEINIT run through their positions.
-/

namespace Sys2Proof.Proofs

open Sys2Proof.Machine

/-! ### An answer at a position that awaits no handoff -/

section IdlePort
variable {s : State} (hb : s.txBusy = false)
include hb

/-- R203: the hook has answered `ok`, and the first delay is requested. -/
theorem answer_initHook_ok (hq : s.seq = .initHook) :
    answer .ok s = { s with seq := .initStabilize, calls := s.calls ++ [.delay s.cfg.tStabilize] } := by
  simp only [answer, txValid, hb, Bool.false_and, Bool.false_eq_true, if_false, hq, beginDelay, logCall]

/-- R204: the hook has failed. -/
theorem answer_initHook_fail (hq : s.seq = .initHook) : answer .fail s = LifecycleEnded .transportError s := by
  simp only [answer, txValid, hb, Bool.false_and, Bool.false_eq_true, if_false, hq, emitLifecycle, LifecycleEnded]

/-- R203, R210: the first delay is over, whatever its answer, and the reset command is presented. -/
theorem answer_initStabilize (d : Answer) (hsend : s.cfg.hasSend = true) (hq : s.seq = .initStabilize) :
    answer d s = InitPresents .initReset s.cfg.opReset s.cfg.resetData s := by
  simp only [answer, txValid, hb, Bool.false_and, Bool.false_eq_true, if_false, hq, initSend, hsend, if_true, presentFrame,
    logCall, InitPresents]

/-- R203, R210: the second delay is over, and the device-select command is presented. -/
theorem answer_initAfterReset (d : Answer) (hsend : s.cfg.hasSend = true) (hq : s.seq = .initAfterReset) :
    answer d s = InitPresents .initSelect s.cfg.opSelectDevice s.cfg.selectData s := by
  simp only [answer, txValid, hb, Bool.false_and, Bool.false_eq_true, if_false, hq, initSend, hsend, if_true, presentFrame,
    logCall, InitPresents]

/-- R203, R210: the last delay is over, and the handler is Ready. -/
theorem answer_initAfterSelect (d : Answer) (hq : s.seq = .initAfterSelect) :
    answer d s = LifecycleEnded .ok { s with hstate := .ready } := by
  simp only [answer, txValid, hb, Bool.false_and, Bool.false_eq_true, if_false, hq, emitLifecycle, LifecycleEnded]

/-- R207, R208: the teardown hook has answered, whatever it was. -/
theorem answer_deinitHook (d : Answer) (hq : s.seq = .deinitHook) : answer d s = finishDeinit s := by
  simp only [answer, txValid, hb, Bool.false_and, Bool.false_eq_true, if_false, hq]

end IdlePort

/-! ### An answer to an outstanding handoff -/

section Handoff
variable {s : State} (hb : s.txBusy = true) (hsend : s.cfg.hasSend = true)
include hb hsend

theorem answer_of_outstanding (a : Answer) : answer a s = answerHandoff a s := by
  simp only [answer, txValid_iff.mpr ⟨hb, hsend⟩, if_true]

/-- R124, R141: the handoff of a SEND of the host has answered `ok`. -/
theorem answer_send_ok (hq : s.seq = .idle) : answer .ok s = emitCommand .ok (commitSend s) := by
  rw [answer_of_outstanding hb hsend]
  simp only [answerHandoff, hq]

/-- R123: the handoff of a SEND of the host has failed. -/
theorem answer_send_fail (hq : s.seq = .idle) : answer .fail s = emitCommand .transportError { s with txBusy := false } := by
  rw [answer_of_outstanding hb hsend]
  simp only [answerHandoff, hq]

/-- R203, R212: the reset command of INIT is committed, and the second delay is requested. -/
theorem answer_initReset_ok (hq : s.seq = .initReset)
    (hcmd : s.txCmd = ⟨s.cfg.opReset, hiByte s.cfg.resetData, loByte s.cfg.resetData⟩) :
    answer .ok s = InitSent .initAfterReset s.cfg.opReset s.cfg.resetData s.cfg.tAfterReset s := by
  rw [answer_of_outstanding hb hsend]
  simp only [answerHandoff, hq, beginDelay, logCall, commitSend, State.clearResponse, hcmd, joinBytes_hi_lo, InitSent]

/-- R203, R212: the device-select command of INIT is committed, and the last delay is requested. -/
theorem answer_initSelect_ok (hq : s.seq = .initSelect)
    (hcmd : s.txCmd = ⟨s.cfg.opSelectDevice, hiByte s.cfg.selectData, loByte s.cfg.selectData⟩) :
    answer .ok s = InitSent .initAfterSelect s.cfg.opSelectDevice s.cfg.selectData s.cfg.tAfterSelect s := by
  rw [answer_of_outstanding hb hsend]
  simp only [answerHandoff, hq, beginDelay, logCall, commitSend, State.clearResponse, hcmd, joinBytes_hi_lo, InitSent]

/-- R204: a command of INIT has failed. -/
theorem answer_initSend_fail (hq : s.seq = .initReset ∨ s.seq = .initSelect) :
    answer .fail s = LifecycleEnded .transportError { s with txBusy := false } := by
  rw [answer_of_outstanding hb hsend]
  rcases hq with hq | hq <;> simp only [answerHandoff, hq, emitLifecycle, LifecycleEnded]

end Handoff

/-- The end of INIT or DEINIT takes no further answer. -/
theorem settleWith_ended (r : Status) (as : List Answer) {s : State} (hb : s.txBusy = false) :
    settleWith as (LifecycleEnded r s) = { LifecycleEnded r s with replies := as } :=
  settleWith_ready as (cmdReady_iff.mpr ⟨hb, rfl⟩)

/-! ### Refused and ignored requests -/

/-- Settles O37: both capabilities are there, so the check of R206 is reached. -/
theorem initRefusedWhileReady : Obligations.InitRefusedWhileReady := by
  intro s hready hstate hdelay hsend
  rw [exec_init, execInit, if_pos hready, if_pos ⟨hdelay, hsend, hstate⟩]

/-- Settles O39: both operations look at `cmd_ready` before anything else. -/
theorem lifecycleIgnoredWhileBusy : Obligations.LifecycleIgnoredWhileBusy := by
  intro s hbusy
  have hnot : ¬ cmdReady s = true := by simp [hbusy]
  exact ⟨by rw [exec_init, execInit, if_neg hnot], by rw [exec_deinit, execDeinit, if_neg hnot]⟩

/-! ### INIT -/

/-- R202 to R206: INIT of an Uninitialized handler starts. -/
theorem exec_init_accepted {s : State} (hready : cmdReady s = true) (hstate : s.hstate = .uninitialized) :
    exec .init s = .next (settle (acceptInit s)) := by
  rw [exec_init, execInit, if_pos hready, if_neg (by simp [hstate])]

/-- R203, R205: `s` where INIT waits for the hook. -/
def hooking (s : State) : State := { resetHandler s with seq := .initHook, calls := s.calls ++ [.hookInit] }

/-- R203, R205: `s` where INIT waits for the first delay, after the hook where there is one. -/
def stabilizing (s : State) : State :=
  { resetHandler s with
    seq := .initStabilize, calls := s.calls ++ (if s.cfg.hasInit then [.hookInit] else []) ++ [.delay s.cfg.tStabilize] }

section Init
variable {s : State} (hb : s.txBusy = false) (hdelay : s.cfg.hasDelay = true) (hsend : s.cfg.hasSend = true)
include hdelay hsend

theorem acceptInit_hook (hinit : s.cfg.hasInit = true) : acceptInit s = hooking s := by
  rw [acceptInit, if_pos ⟨hdelay, hsend⟩, if_pos hinit]
  rfl

theorem acceptInit_noHook (hinit : s.cfg.hasInit = false) : acceptInit s = stabilizing s := by
  rw [acceptInit, if_pos ⟨hdelay, hsend⟩, if_neg (by simp [hinit])]
  simp only [stabilizing, hinit, Bool.false_eq_true, if_false, List.append_nil]
  rfl

include hb

/-- R203, R209: past the hook, or without one, INIT waits for the first delay, with the answers left. -/
theorem settle_acceptInit {as : List Answer} (hr : s.replies = (if s.cfg.hasInit then [.ok] else []) ++ as) :
    settle (acceptInit s) = settleWith as (stabilizing s) := by
  cases hinit : s.cfg.hasInit with
  | false =>
    rw [acceptInit_noHook hdelay hsend hinit, settle, show (stabilizing s).replies = as from hr.trans (by simp [hinit])]
  | true =>
    rw [acceptInit_hook hdelay hsend hinit, settle, show (hooking s).replies = .ok :: as from hr.trans (by simp [hinit]),
      settleWith_waiting _ _ (not_cmdReady_of_seq (by simp [hooking])), answer_initHook_ok (by exact hb) rfl]
    simp only [stabilizing, hinit, if_true]
    rfl

end Init

/-! ### INIT from the first delay on -/

/-- `s` after the first delay of INIT and the handoff of the reset command, answered `ok`. -/
def resetSent (s : State) : State :=
  InitSent .initAfterReset s.cfg.opReset s.cfg.resetData s.cfg.tAfterReset (InitPresents .initReset s.cfg.opReset s.cfg.resetData s)

/-- `s` after the second delay of INIT and the handoff of the device-select command, answered `ok`. -/
def selectSent (s : State) : State :=
  InitSent .initAfterSelect s.cfg.opSelectDevice s.cfg.selectData s.cfg.tAfterSelect
    (InitPresents .initSelect s.cfg.opSelectDevice s.cfg.selectData s)

section Positions
variable {s : State} (hb : s.txBusy = false) (hsend : s.cfg.hasSend = true)
include hb hsend

theorem settleWith_resetSent (d : Answer) (as : List Answer) (hq : s.seq = .initStabilize) :
    settleWith (d :: .ok :: as) s = settleWith as (resetSent s) := by
  rw [settleWith_waiting _ _ (not_cmdReady_of_seq (by simp [hq])), answer_initStabilize hb d hsend hq,
    settleWith_waiting _ _ (not_cmdReady_of_busy rfl), answer_initReset_ok (by rfl) (by exact hsend) (by rfl) (by rfl)]
  rfl

theorem settleWith_selectSent (d : Answer) (as : List Answer) (hq : s.seq = .initAfterReset) :
    settleWith (d :: .ok :: as) s = settleWith as (selectSent s) := by
  rw [settleWith_waiting _ _ (not_cmdReady_of_seq (by simp [hq])), answer_initAfterReset hb d hsend hq,
    settleWith_waiting _ _ (not_cmdReady_of_busy rfl), answer_initSelect_ok (by rfl) (by exact hsend) (by rfl) (by rfl)]
  rfl

/-- R204: the reset command fails. -/
theorem settleWith_resetFails (d : Answer) (as : List Answer) (hq : s.seq = .initStabilize) :
    settleWith (d :: .fail :: as) s =
      { LifecycleEnded .transportError
          { InitPresents .initReset s.cfg.opReset s.cfg.resetData s with txBusy := false } with replies := as } := by
  rw [settleWith_waiting _ _ (not_cmdReady_of_seq (by simp [hq])), answer_initStabilize hb d hsend hq,
    settleWith_waiting _ _ (not_cmdReady_of_busy rfl), answer_initSend_fail (by rfl) (by exact hsend) (.inl (by rfl)),
    settleWith_ended _ _ (by rfl)]

/-- R204: the device-select command fails. -/
theorem settleWith_selectFails (d : Answer) (as : List Answer) (hq : s.seq = .initAfterReset) :
    settleWith (d :: .fail :: as) s =
      { LifecycleEnded .transportError
          { InitPresents .initSelect s.cfg.opSelectDevice s.cfg.selectData s with txBusy := false } with replies := as } := by
  rw [settleWith_waiting _ _ (not_cmdReady_of_seq (by simp [hq])), answer_initAfterReset hb d hsend hq,
    settleWith_waiting _ _ (not_cmdReady_of_busy rfl), answer_initSend_fail (by rfl) (by exact hsend) (.inr (by rfl)),
    settleWith_ended _ _ (by rfl)]

omit hsend in
/-- R203: the last delay is over, and INIT ends with `Ok`. -/
theorem settleWith_initEnds (d : Answer) (as : List Answer) (hq : s.seq = .initAfterSelect) :
    settleWith (d :: as) s = { LifecycleEnded .ok { s with hstate := .ready } with replies := as } := by
  rw [settleWith_waiting _ _ (not_cmdReady_of_seq (by simp [hq])), answer_initAfterSelect hb d hq,
    settleWith_ended _ _ (by exact hb)]

end Positions

/-- Settles O35: with no answer at hand INIT stays where it starts. -/
theorem initStartResets : Obligations.InitStartResets := by
  intro s hready hstate hdelay hsend hr
  have hb := (cmdReady_iff.mp hready).1
  have hreset : HandlerReset (resetHandler s) := ⟨rfl, rfl, rfl, rfl, rfl, rfl, rfl, rfl, rfl, rfl, rfl⟩
  rw [exec_init_accepted hready hstate]
  cases hinit : s.cfg.hasInit with
  | true =>
    rw [acceptInit_hook hdelay hsend hinit, settle, show (hooking s).replies = [] from hr]
    exact ⟨_, rfl, hreset, rfl, hstate, hb, rfl, rfl, rfl, rfl⟩
  | false =>
    rw [acceptInit_noHook hdelay hsend hinit, settle, show (stabilizing s).replies = [] from hr]
    exact ⟨_, rfl, hreset, rfl, hstate, hb, rfl, rfl, rfl, by simp [stabilizing, settleWith, hinit]⟩

/-- Settles O34: INIT runs through its positions, each taking the next answer. -/
theorem initCompletes : Obligations.InitCompletes := by
  intro s d1 d2 d3 rest hready hstate hdelay hsend hr
  have hb := (cmdReady_iff.mp hready).1
  rw [List.append_assoc] at hr
  rw [exec_init_accepted hready hstate, settle_acceptInit hb hdelay hsend hr]
  simp only [List.cons_append, List.nil_append]
  rw [settleWith_resetSent (by exact hb) (by exact hsend) d1 _ (by rfl),
    settleWith_selectSent (by rfl) (by exact hsend) d2 _ (by rfl), settleWith_initEnds (by rfl) d3 _ (by rfl)]
  refine ⟨_, rfl, rfl, rfl, rfl, ⟨rfl, rfl, rfl, rfl⟩, rfl, rfl, rfl, rfl, rfl, rfl, cmdReady_iff.mpr ⟨rfl, rfl⟩, rfl, rfl, rfl,
    rfl, rfl, rfl, ?_, ?_⟩
  · exact List.append_assoc _ _ _
  · simp [LifecycleEnded, selectSent, resetSent, stabilizing, InitSent, InitPresents]

/-- Settles O36: the same run, cut short at the hook, at the reset command and at the device-select command. -/
theorem initFailureAborts : Obligations.InitFailureAborts := by
  intro s d1 d2 rest hready hstate hdelay hsend
  have hb := (cmdReady_iff.mp hready).1
  rw [exec_init_accepted hready hstate]
  refine ⟨fun hinit hr => ?_, fun hr => ?_, fun hr => ?_⟩
  · rw [acceptInit_hook hdelay hsend hinit, settle, show (hooking s).replies = .fail :: rest from hr,
      settleWith_waiting _ _ (not_cmdReady_of_seq (by simp [hooking])), answer_initHook_fail (by exact hb) rfl,
      settleWith_ended _ _ (by exact hb)]
    exact ⟨_, rfl, ⟨rfl, rfl, rfl, rfl, rfl, rfl, rfl, rfl, rfl, rfl, rfl⟩, hstate, rfl, rfl, rfl, rfl, rfl,
      cmdReady_iff.mpr ⟨hb, rfl⟩⟩
  · rw [List.append_assoc] at hr
    rw [settle_acceptInit hb hdelay hsend hr]
    simp only [List.cons_append, List.nil_append]
    rw [settleWith_resetFails (by exact hb) (by exact hsend) d1 _ (by rfl)]
    refine ⟨_, rfl, ⟨rfl, rfl, rfl, rfl, rfl, rfl, rfl, rfl, rfl, rfl, rfl⟩, hstate, rfl, ?_, rfl, rfl, rfl,
      cmdReady_iff.mpr ⟨rfl, rfl⟩⟩
    simp [LifecycleEnded, stabilizing, InitPresents]
  · rw [List.append_assoc] at hr
    rw [settle_acceptInit hb hdelay hsend hr]
    simp only [List.cons_append, List.nil_append]
    rw [settleWith_resetSent (by exact hb) (by exact hsend) d1 _ (by rfl),
      settleWith_selectFails (by rfl) (by exact hsend) d2 _ (by rfl)]
    refine ⟨_, rfl, rfl, rfl, ⟨rfl, rfl, rfl, rfl⟩, rfl, rfl, rfl, rfl, rfl, hstate, rfl, ?_, rfl, rfl, rfl,
      cmdReady_iff.mpr ⟨rfl, rfl⟩⟩
    simp [LifecycleEnded, resetSent, stabilizing, InitSent, InitPresents]

/-! ### DEINIT -/

/-- R207, R39: the end of DEINIT, every reset written out. -/
theorem finishDeinit_eq (s : State) :
    finishDeinit s = LifecycleEnded .ok
      { s with
        volume := 0, track := 0, status := 0, media := false, lastCmdOp := 0, lastCmdData := 0, lastRspCode := 0,
        lastRspData := 0, lastRspValid := false, fstate := .idle, cursor := 0, hstate := .uninitialized } := rfl

/-- Settles O38: with a hook its one answer is taken, without one none. -/
theorem deinitCompletes : Obligations.DeinitCompletes := by
  intro s a rest hready hr
  obtain ⟨hb, hq⟩ := cmdReady_iff.mp hready
  rw [exec_deinit, execDeinit, if_pos hready, acceptDeinit]
  cases hdeinit : s.cfg.hasDeinit with
  | false =>
    have hr : (finishDeinit s).replies = rest := hr.trans (by simp [hdeinit])
    rw [if_neg (by simp), settle, hr, finishDeinit_eq, settleWith_ended _ _ (by exact hb)]
    exact ⟨_, rfl, by simp [LifecycleEnded, hq]⟩
  | true =>
    have hr : (logCall .hookDeinit { s with seq := .deinitHook }).replies = a :: rest := hr.trans (by simp [hdeinit])
    rw [if_pos rfl, settle, hr, settleWith_waiting _ _ (not_cmdReady_of_seq (by simp)), answer_deinitHook (by exact hb) a rfl,
      finishDeinit_eq, settleWith_ended _ _ (by exact hb)]
    exact ⟨_, rfl, by simp [LifecycleEnded, logCall, hq]⟩

/-! ### What the invariant says of the positions (R36, R72) -/

section Sequencer
variable {s : State} (hi : MachineInv s)
include hi

/-- A handoff is outstanding at the two positions that await one, and at no other position. -/
theorem txBusy_of_position (hq : s.seq ≠ .idle) : s.txBusy = (decide (s.seq = .initReset) || decide (s.seq = .initSelect)) := by
  obtain ⟨-, -, hposition⟩ := hi.sequencer
  cases hs : s.seq <;> simp_all

/-- INIT runs only with the send capability. -/
theorem hasSend_of_position (hidle : s.seq ≠ .idle) (hdeinit : s.seq ≠ .deinitHook) : s.cfg.hasSend = true := by
  obtain ⟨hbusy, -, hposition⟩ := hi.sequencer
  cases hs : s.seq <;> simp_all

theorem txCmd_of_initReset (hq : s.seq = .initReset) :
    s.txCmd = ⟨s.cfg.opReset, hiByte s.cfg.resetData, loByte s.cfg.resetData⟩ := by
  obtain ⟨-, -, hposition⟩ := hi.sequencer
  simp only [hq] at hposition
  obtain ⟨-, -, -, hcmd⟩ := hposition
  exact hcmd

theorem txCmd_of_initSelect (hq : s.seq = .initSelect) :
    s.txCmd = ⟨s.cfg.opSelectDevice, hiByte s.cfg.selectData, loByte s.cfg.selectData⟩ := by
  obtain ⟨-, -, hposition⟩ := hi.sequencer
  simp only [hq] at hposition
  obtain ⟨-, -, -, hcmd⟩ := hposition
  exact hcmd

/-! ### Each answer under the invariant -/

theorem Inv_answer_initHook_ok (hq : s.seq = .initHook) :
    answer .ok s = { s with seq := .initStabilize, calls := s.calls ++ [.delay s.cfg.tStabilize] } :=
  answer_initHook_ok (by simp [txBusy_of_position hi, hq]) hq

theorem Inv_answer_initHook_fail (hq : s.seq = .initHook) : answer .fail s = LifecycleEnded .transportError s :=
  answer_initHook_fail (by simp [txBusy_of_position hi, hq]) hq

theorem Inv_answer_initStabilize (d : Answer) (hq : s.seq = .initStabilize) :
    answer d s = InitPresents .initReset s.cfg.opReset s.cfg.resetData s :=
  answer_initStabilize (by simp [txBusy_of_position hi, hq]) d (hasSend_of_position hi (by simp [hq]) (by simp [hq])) hq

theorem Inv_answer_initReset_ok (hq : s.seq = .initReset) :
    answer .ok s = InitSent .initAfterReset s.cfg.opReset s.cfg.resetData s.cfg.tAfterReset s :=
  answer_initReset_ok (by simp [txBusy_of_position hi, hq]) (hasSend_of_position hi (by simp [hq]) (by simp [hq])) hq
    (txCmd_of_initReset hi hq)

theorem Inv_answer_initAfterReset (d : Answer) (hq : s.seq = .initAfterReset) :
    answer d s = InitPresents .initSelect s.cfg.opSelectDevice s.cfg.selectData s :=
  answer_initAfterReset (by simp [txBusy_of_position hi, hq]) d (hasSend_of_position hi (by simp [hq]) (by simp [hq])) hq

theorem Inv_answer_initSelect_ok (hq : s.seq = .initSelect) :
    answer .ok s = InitSent .initAfterSelect s.cfg.opSelectDevice s.cfg.selectData s.cfg.tAfterSelect s :=
  answer_initSelect_ok (by simp [txBusy_of_position hi, hq]) (hasSend_of_position hi (by simp [hq]) (by simp [hq])) hq
    (txCmd_of_initSelect hi hq)

theorem Inv_answer_initAfterSelect (d : Answer) (hq : s.seq = .initAfterSelect) :
    answer d s = LifecycleEnded .ok { s with hstate := .ready } :=
  answer_initAfterSelect (by simp [txBusy_of_position hi, hq]) d hq

theorem Inv_answer_deinitHook (d : Answer) (hq : s.seq = .deinitHook) : answer d s = finishDeinit s :=
  answer_deinitHook (by simp [txBusy_of_position hi, hq]) d hq

theorem Inv_answer_initSend_fail (hq : s.seq = .initReset ∨ s.seq = .initSelect) :
    answer .fail s = LifecycleEnded .transportError { s with txBusy := false } :=
  answer_initSend_fail (by rcases hq with hq | hq <;> simp [txBusy_of_position hi, hq])
    (by rcases hq with hq | hq <;> exact hasSend_of_position hi (by simp [hq]) (by simp [hq])) hq

end Sequencer

/-! ### A response during INIT -/

/-- R212, R124: the commit of a SEND of INIT clears the response, whatever it was. -/
theorem handoffCommitted_initSent {position : Seq} {op : Byte} {data ms : Half} {s u : State} (hlog : u.txLog = s.txLog) :
    HandoffCommitted op data position s (InitSent position op data ms u) :=
  ⟨rfl, rfl, rfl, rfl, rfl, by rw [InitSent, hlog], rfl⟩

section Committed
variable {s u : State} (hi : MachineInv u) (hcfg : u.cfg = s.cfg) (hlog : u.txLog = s.txLog)
include hi hcfg hlog

theorem committed_of_initReset (hq : u.seq = .initReset) :
    HandoffCommitted s.cfg.opReset s.cfg.resetData .initAfterReset s (answer .ok u) := by
  rw [Inv_answer_initReset_ok hi hq, ← hcfg]
  exact handoffCommitted_initSent hlog

theorem committed_of_initStabilize (d : Answer) (hq : u.seq = .initStabilize) :
    HandoffCommitted s.cfg.opReset s.cfg.resetData .initAfterReset s (answer .ok (answer d u)) := by
  have hi' := Inv_answer d hi
  rw [Inv_answer_initStabilize hi d hq] at hi' ⊢
  exact committed_of_initReset hi' hcfg hlog rfl

theorem committed_of_initHook (d : Answer) (hq : u.seq = .initHook) :
    HandoffCommitted s.cfg.opReset s.cfg.resetData .initAfterReset s (answer .ok (answer d (answer .ok u))) := by
  have hi' := Inv_answer .ok hi
  rw [Inv_answer_initHook_ok hi hq] at hi' ⊢
  exact committed_of_initStabilize hi' hcfg hlog d rfl

/-- After the last SEND of INIT nothing but its delay stands between the handler and Ready. -/
theorem committed_of_initSelect (e : Answer) (hq : u.seq = .initSelect) :
    HandoffCommitted s.cfg.opSelectDevice s.cfg.selectData .initAfterSelect s (answer .ok u) ∧
      (answer e (answer .ok u)).hstate = .ready ∧ (answer e (answer .ok u)).lastRspValid = false := by
  have hi' := Inv_answer .ok hi
  rw [Inv_answer_initSelect_ok hi hq] at hi' ⊢
  rw [Inv_answer_initAfterSelect hi' e rfl, ← hcfg]
  exact ⟨handoffCommitted_initSent hlog, rfl, rfl⟩

theorem committed_of_initAfterReset (d e : Answer) (hq : u.seq = .initAfterReset) :
    HandoffCommitted s.cfg.opSelectDevice s.cfg.selectData .initAfterSelect s (answer .ok (answer d u)) ∧
      (answer e (answer .ok (answer d u))).hstate = .ready ∧ (answer e (answer .ok (answer d u))).lastRspValid = false := by
  have hi' := Inv_answer d hi
  rw [Inv_answer_initAfterReset hi d hq] at hi' ⊢
  exact committed_of_initSelect hi' hcfg hlog e rfl

end Committed

theorem exec_rspAck (f : RxFields) (s : State) : exec (.rspAck f) s = outcomeOf (feedAll (rxFrame s.cfg.rcAck f) s) := rfl

/-- Settles O40: reception leaves the sequencer's registers and keeps the invariant, so each position goes on as it does without
the response. -/
theorem initGoesOnAfterReception : Obligations.InitGoesOnAfterReception := by
  intro f s d e hi _ hidle hn
  obtain ⟨t, ht, ⟨-, hrec⟩, -⟩ := feedAll_rxFrame hidle hi.admissible hi.buffer.1 hn
  have hframe : ReceptionFrame s t := feedAll_receptionFrame ht
  have hit : MachineInv t := feedAll_keeps_Inv ht hi
  have hcfg := hframe.cfg
  have hlog := hframe.txLog
  have hvalid : t.lastRspValid = true := congrArg State.lastRspValid hrec
  have hcode : t.lastRspCode = s.cfg.rcAck := congrArg State.lastRspCode hrec
  refine ⟨t, by rw [exec_rspAck, ht, outcomeOf], hvalid, hcode, congrArg State.lastRspData hrec, hframe.seq, hframe.txBusy,
    hframe.txCmd, ?_⟩
  rw [← hframe.seq]
  refine ⟨committed_of_initHook hit hcfg hlog d, committed_of_initStabilize hit hcfg hlog d, committed_of_initReset hit hcfg hlog,
    committed_of_initAfterReset hit hcfg hlog d e, committed_of_initSelect hit hcfg hlog e, fun hq => ?_⟩
  rw [Inv_answer_initAfterSelect hit d hq]
  exact ⟨rfl, hvalid, hcode⟩

end Sys2Proof.Proofs
end

section
/-!
PROOFS. Reset, hazards and steps (`70_reset_and_hazards.md`, `20_memory.md` section 5): what reset leaves, a SEND beside a response,
and what each event runs.
-/

namespace Sys2Proof.Proofs

open Sys2Proof.Machine

/-! ### Reset -/

/-- Settles O41: each register is read off the reset state, whose buffer lists no cell. -/
theorem resetValues : Obligations.ResetValues :=
  ⟨⟨rfl, rfl, rfl, rfl, rfl, rfl, rfl, rfl, rfl, rfl, rfl⟩, fun _ => rfl, rfl, rfl, rfl, rfl⟩

theorem clockEdge_rst {p : PortIn} (s : State) (h : p.rst = true) : clockEdge p s = .ok (hardwareReset s) := by
  rw [clockEdge, if_pos h]

/-- Settles O49: `rst` is looked at before any other pin, and its level masks the pulses. -/
theorem resetPinWins : Obligations.ResetPinWins := by
  intro p s hrst
  refine ⟨hrst ▸ noPulse_rst s, statusOutputs_self s p.rst, hardwareReset s, clockEdge_rst s hrst, ?_⟩
  exact ⟨⟨rfl, rfl, rfl, rfl, rfl, rfl, rfl, rfl, rfl, rfl, rfl⟩, fun _ => rfl, rfl, rfl, rfl, rfl, rfl, rfl, rfl,
    noPulse_hardwareReset s⟩

/-! ### A SEND and a response -/

/-- Settles O48: the two completions see the same cells, so they record and write the same; only the commit after the first one
clears what was recorded. -/
theorem sendRacesResponse : Obligations.SendRacesResponse := by
  intro op hi lo rest s t u v w hinv hin hready hsend hr ht hu hv hw
  have hadm := hinv.admissible
  have hcur := hinv.framer.2
  have hfirst := ht.symm.trans (exec_byteEofInframe_complete hin hadm hcur)
  have hframe : ReceptionFrame s t := feedAll_receptionFrame (feedAll_single eof s ▸ outcomeOf_eq_next ht)
  obtain ⟨hb, hq⟩ := cmdReady_iff.mp hready
  rw [exec_send, sendCommand_sentOk op hi lo (cmdReady_iff.mpr ⟨hframe.txBusy.trans hb, hframe.seq.trans hq⟩)
    (by rw [hframe.cfg, hsend]) (hframe.replies.trans hr)] at hu
  rw [exec_send, sendCommand_sentOk op hi lo hready hsend hr] at hv
  cases hu
  cases hv
  have hsecond := hw.symm.trans (exec_byteEofInframe_complete (s := SentOk op hi lo rest s) hin hadm hcur)
  injection hfirst with hfirst
  injection hsecond with hsecond
  have hcode : w.lastRspCode = t.lastRspCode := by rw [hfirst, hsecond, dispatched_code, dispatched_code]; rfl
  have hdata : w.lastRspData = t.lastRspData := by rw [hfirst, hsecond, dispatched_data, dispatched_data]; rfl
  have hop : w.lastCmdOp = op := by rw [hsecond, dispatched_frame]; rfl
  obtain ⟨-, hvolume, htrack, hstatus, hmedia, -⟩ := completionByCode s t hin hadm ht
  obtain ⟨hvalid, hvolume', htrack', hstatus', hmedia', -⟩ := completionByCode (SentOk op hi lo rest s) w hin hadm hw
  rw [hcode, hdata] at htrack'
  rw [hcode] at hvolume' hstatus' hmedia'
  rw [hdata] at hvolume' hstatus'
  exact ⟨rfl, rfl, rfl, hvalid, hcode, hdata,
    ⟨hvolume.trans hvolume'.symm, htrack.trans htrack'.symm, hstatus.trans hstatus'.symm, hmedia.trans hmedia'.symm⟩, rfl, hop⟩

/-! ### The step (R10, R65) -/

theorem step_event {s : State} {e : Event} {rest : List Event} (h : s.agenda = e :: rest) :
    step s = runEvent e (takeEvent rest s) := by
  rw [step, h]

theorem runEvent_word_ok {r : Request} {i : Instr} {s : State} (h : decode s.cfg s.view r = .ok i) :
    runEvent (.word r) s = exec i (endRejection s) := by
  simp only [runEvent, h]

theorem runEvent_word_error {r : Request} {e : DecodeError} {s : State} (h : decode s.cfg s.view r = .error e) :
    runEvent (.word r) s = .refused (.noSuchWord e) := by
  simp only [runEvent, h]

theorem runEvent_reply (a : Answer) (s : State) : runEvent (.reply a) s = .next (replyStep a (endRejection s)) := rfl

theorem runEvent_edge (p : PortIn) (s : State) : runEvent (.edge p) s = outcomeOf (clockEdge p s) := rfl

/-- Settles O55: taking the event gives `u`, and ending a rejection in it gives `v`. -/
theorem stepRunsPresentedInstruction : Obligations.StepRunsPresentedInstruction := by
  rintro s rest u v rfl rfl
  refine ⟨fun r i h hdec => ?_, fun r e h hdec => ?_, fun i h => step_event h, fun a h hready => ?_, fun a h hbusy => ?_,
    fun p t h hedge => ?_, fun p f h hedge => ?_, fun h hrest => ?_⟩
  · rw [step_event h, runEvent_word_ok (by exact hdec)]; rfl
  · rw [step_event h, runEvent_word_error (by exact hdec)]
  · rw [step_event h, runEvent_reply, replyStep, if_pos (by exact hready)]; rfl
  · rw [step_event h, runEvent_reply, replyStep, if_neg (ne_true_of_eq_false (by exact hbusy))]; rfl
  · rw [step_event h, runEvent_edge]; exact congrArg outcomeOf hedge
  · rw [step_event h, runEvent_edge]; exact congrArg outcomeOf hedge
  · subst hrest; rw [step, h]; rfl

/-- A block that waits for nothing takes no answer. -/
theorem settle_ready {s : State} (h : cmdReady s = true) : settle s = s := settleWith_ready s.replies h

/-- R141: a late answer to an outstanding handoff of the host. -/
theorem step_reply {s : State} {a : Answer} {rest : List Event} (h : s.agenda = .reply a :: rest) (hb : s.txBusy = true)
    (hsend : s.cfg.hasSend = true) : step s = .next (settle (answer a (takeEvent rest s))) := by
  have hbusy : cmdReady (takeEvent rest s) = false := not_cmdReady_of_busy hb
  rw [step_event h, runEvent_reply, endRejection_of_send (by exact hsend), replyStep, if_neg (ne_true_of_eq_false hbusy)]

/-- Settles O56: the answer ends the handoff, so none of the answers that stand ready is taken. -/
theorem lateAnswerCommits : Obligations.LateAnswerCommits := by
  intro s rest hb hsend hq
  refine ⟨fun h => ?_, fun h => ?_⟩
  · rw [step_reply h hb hsend, answer_send_ok (by exact hb) (by exact hsend) (by exact hq),
      settle_ready (by exact cmdReady_iff.mpr ⟨rfl, hq⟩), ← encodedFrameBytes]
    rfl
  · rw [step_reply h hb hsend, answer_send_fail (by exact hb) (by exact hsend) (by exact hq),
      settle_ready (by exact cmdReady_iff.mpr ⟨rfl, hq⟩)]
    rfl

end Sys2Proof.Proofs
end

section
/-!
PROOFS. The port level (`20_memory.md` R66 to R72): commands, received bytes, lifecycle requests and the capability handshakes.
-/

namespace Sys2Proof.Proofs

open Sys2Proof.Machine

/-! ### The frame on the TX port (R68) -/

theorem toNat_append_byte {n : Nat} (x : BitVec n) (y : Byte) : (x ++ y).toNat = 256 * x.toNat + y.toNat := by
  rw [BitVec.toNat_append, ← Nat.shiftLeft_add_eq_or_of_lt y.isLt, Nat.shiftLeft_eq, Nat.mul_comm]

/-- R68, R90: the number of an outbound frame, byte index 0 in bits 63 to 56. -/
theorem ofNat_frameValue_encodeFrame (op hi lo : Byte) :
    BitVec.ofNat 64 (frameValue (encodeFrame op hi lo)) =
      0x7E#8 ++ 0xFF#8 ++ 0x06#8 ++ op ++ 0x01#8 ++ hi ++ lo ++ 0xEF#8 := by
  have hop := op.isLt
  have hhi := hi.isLt
  have hlo := lo.isLt
  refine BitVec.eq_of_toNat_eq ?_
  simp only [toNat_append_byte, BitVec.toNat_ofNat, encodeFrame, frameValue, List.length_cons, List.length_nil, sof, ver, len, fb,
    eof]
  omega

/-! ### The edge, by the pins that count -/

/-- R69, R77: a received byte is fed first, and then the answer of the outstanding call takes effect. -/
theorem clockEdge_fed_answers {p : PortIn} {s t : State} {a : Answer} (hr : p.rst = false) (hx : p.rxValid = true)
    (hf : feed p.rxByte s = .ok t) (hc : cmdReady t = false) (ha : answerPins p t = some a) : clockEdge p s = .ok (answer a t) := by
  simp only [clockEdge, hr, hx, hf, hc, ha, Bool.false_eq_true, if_false, if_true]

/-- R68: the answer pins while a handoff is outstanding; `tx_nak` wins (R230 e). -/
theorem answerPins_handoff {p : PortIn} {s : State} (hb : s.txBusy = true) (hsend : s.cfg.hasSend = true) :
    answerPins p s = if p.txNak then some .fail else if p.txAck then some .ok else none := by
  simp only [answerPins, hb, hsend, if_true]

/-- R72: the answer pins while a hook is requested. -/
theorem answerPins_hook {p : PortIn} {s : State} (hb : s.txBusy = false) (hq : s.seq = .initHook ∨ s.seq = .deinitHook) :
    answerPins p s = if p.hookNak then some .fail else if p.hookAck then some .ok else none := by
  have hreq : (hookInitReq s || hookDeinitReq s) = true := by simpa [hookInitReq, hookDeinitReq] using hq
  simp only [answerPins, hb, hreq, Bool.false_eq_true, if_false, if_true]

/-- R72: the answer pins while a delay is requested. -/
theorem answerPins_delay {p : PortIn} {s : State} (hb : s.txBusy = false)
    (hq : s.seq = .initStabilize ∨ s.seq = .initAfterReset ∨ s.seq = .initAfterSelect) :
    answerPins p s = if p.delayNak then some .fail else if p.delayAck then some .ok else none := by
  have hdelay : delayReq s = true := by simpa [delayReq, or_assoc] using hq
  have hhook : (hookInitReq s || hookDeinitReq s) = false := by
    rcases hq with hq | hq | hq <;> simp [hookInitReq, hookDeinitReq, hq]
  simp only [answerPins, hb, hhook, hdelay, Bool.false_eq_true, if_false, if_true]

/-- With no answer pin raised nothing is answered. -/
theorem answerPins_none {p : PortIn} {s : State} (hta : p.txAck = false) (htn : p.txNak = false) (hha : p.hookAck = false)
    (hhn : p.hookNak = false) (hda : p.delayAck = false) (hdn : p.delayNak = false) : answerPins p s = none := by
  simp [answerPins, hta, htn, hha, hhn, hda, hdn]

/-! ### Commands on the port -/

/-- R67: the pins of a command. -/
theorem clockEdge_command (op hi lo : Byte) {s : State} (hready : cmdReady s = true) :
    clockEdge { cmdValid := true, cmdOp := op, cmdHi := hi, cmdLo := lo } s = .ok (acceptCommand op hi lo s) :=
  clockEdge_accepts rfl rfl hready

/-- R124: a presented frame that is acknowledged leaves what the transaction SEND leaves. -/
theorem commit_presentFrame (op hi lo : Byte) {s : State} (hb : s.txBusy = false) :
    emitCommand .ok (commitSend (presentFrame op hi lo s)) = SentOk op hi lo s.replies s := by
  rw [SentOk, ← encodedFrameBytes, hb]
  rfl

/-- R67, R125: without the send capability the operands are sampled and the result is registered. -/
theorem acceptCommand_noCapability (op hi lo : Byte) {s : State} (hsend : s.cfg.hasSend = false) :
    acceptCommand op hi lo s = { s with
      txBusy := true, txCmd := ⟨op, hi, lo⟩, hostLog := s.hostLog ++ [.status .invalidParameter],
      pulses := { s.pulses with cmdDone := some .invalidParameter } } := by
  rw [acceptCommand, if_neg (ne_true_of_eq_false hsend), emitCommand]

/-- R67: in the completion cycle of a rejected command no pin but `rst` and the received byte counts. -/
theorem clockEdge_rejection {p : PortIn} {s : State} (hr : p.rst = false) (hx : p.rxValid = false) (hb : s.txBusy = true)
    (hsend : s.cfg.hasSend = false) : clockEdge p s = .ok { s with txBusy := false } := by
  rw [clockEdge_waits hr hx (not_cmdReady_of_busy hb) (by simp [answerPins, hb, hsend]), endRejection, hsend, Bool.and_false]

theorem portOut_cmdReady_of_busy {s : State} (h : s.txBusy = true) : (portOut s).cmdReady = false := not_cmdReady_of_busy h

/-- R68: the TX port while a frame stands on it. -/
theorem portOut_presented {s : State} (h : txValid s = true) :
    (portOut s).txValid = true ∧
      (portOut s).txFrame =
        some (0x7E#8 ++ 0xFF#8 ++ 0x06#8 ++ s.txCmd.op ++ 0x01#8 ++ s.txCmd.hi ++ s.txCmd.lo ++ 0xEF#8) :=
  ⟨h, by simp only [portOut, h, if_true, txFrame, ofNat_frameValue_encodeFrame]⟩

/-- R68: the TX port while no frame stands on it. -/
theorem portOut_notPresented {s : State} (h : txValid s = false) : (portOut s).txValid = false ∧ (portOut s).txFrame = none :=
  ⟨h, by simp only [portOut, h, Bool.false_eq_true, if_false]⟩

/-- R67, R68, R124: the clause of PortSendCommits about a block with the send capability. -/
theorem command_commits (op hi lo : Byte) {s : State} (hready : cmdReady s = true) (hsend : s.cfg.hasSend = true) :
    clockEdge { cmdValid := true, cmdOp := op, cmdHi := hi, cmdLo := lo } s = .ok (presentFrame op hi lo s) ∧
      clockEdge {} (presentFrame op hi lo s) = .ok (presentFrame op hi lo s) ∧
      clockEdge { txAck := true } (presentFrame op hi lo s) = .ok (SentOk op hi lo s.replies s) := by
  obtain ⟨hb, hq⟩ := cmdReady_iff.mp hready
  have hb' : (presentFrame op hi lo s).txBusy = true := rfl
  have hsend' : (presentFrame op hi lo s).cfg.hasSend = true := hsend
  refine ⟨?_, ?_, ?_⟩
  · rw [clockEdge_command op hi lo hready, acceptCommand_of_send op hi lo hsend]
  · rw [clockEdge_waits rfl rfl (not_cmdReady_of_busy hb') (answerPins_none rfl rfl rfl rfl rfl rfl), endRejection_of_send hsend']
  · rw [clockEdge_answers (a := .ok) rfl rfl (not_cmdReady_of_busy hb') (by rw [answerPins_handoff hb' hsend']; rfl),
      answer_send_ok hb' hsend' hq, commit_presentFrame op hi lo hb]

/-- Settles O50: the frame stands on the port until the acknowledgement, which commits it as SEND does; a rejected command only
completes. -/
theorem portSendCommits : Obligations.PortSendCommits := by
  intro op hi lo s hready _
  have hb := (cmdReady_iff.mp hready).1
  refine ⟨fun hsend => ?_, fun hsend => ?_⟩
  · obtain ⟨haccepted, hheld, hacked⟩ := command_commits op hi lo hready hsend
    obtain ⟨hvalid, hframe⟩ := portOut_presented (s := presentFrame op hi lo s) (txValid_iff.mpr ⟨rfl, hsend⟩)
    have hdone : txValid (SentOk op hi lo s.replies s) = false := by simp [txValid, SentOk, hb]
    exact ⟨_, haccepted, portOut_cmdReady_of_busy rfl, hvalid, hframe, hheld, hacked, rfl, rfl, (portOut_notPresented hdone).1⟩
  · have hrejected := acceptCommand_noCapability op hi lo hsend
    have hbusy : (acceptCommand op hi lo s).txBusy = true := by rw [hrejected]
    have hsend' : (acceptCommand op hi lo s).cfg.hasSend = false := by rw [acceptCommand_cfg, hsend]
    obtain ⟨hvalid, hframe⟩ := portOut_notPresented (s := acceptCommand op hi lo s) (by simp [txValid, hsend'])
    exact ⟨_, clockEdge_command op hi lo hready, hrejected, portOut_cmdReady_of_busy hbusy, hvalid, hframe, by rw [hrejected]; rfl,
      by rw [hrejected]; rfl, fun p hr hx => clockEdge_rejection hr hx hbusy hsend'⟩

/-- Settles O51: `tx_nak` wins whatever `tx_ack` is, and the handoff fails. -/
theorem portNakWins : Obligations.PortNakWins := by
  intro ack s hb hsend hq
  refine ⟨_, clockEdge_answers (a := .fail) rfl rfl (not_cmdReady_of_busy hb) (by rw [answerPins_handoff hb hsend]; rfl), ?_⟩
  rw [answer_send_fail hb hsend hq]
  exact ⟨rfl, rfl⟩

/-- Settles O52: FEED leaves the registers of the outstanding handoff, so the commit after it reads what it would have read before. -/
theorem portFeedBeforeCommit : Obligations.PortFeedBeforeCommit := by
  intro b s t hb hsend hq hfeed
  have hframe : ReceptionFrame s t := feed_receptionFrame hfeed ⟨rfl, rfl, rfl, rfl, rfl, rfl, rfl, rfl, rfl, rfl, rfl, rfl⟩
  have hb' : t.txBusy = true := hframe.txBusy.trans hb
  have hsend' : t.cfg.hasSend = true := by rw [hframe.cfg, hsend]
  refine ⟨_, clockEdge_fed_answers (a := .ok) rfl rfl hfeed (not_cmdReady_of_busy hb')
    (by rw [answerPins_handoff hb' hsend']; rfl), ?_⟩
  rw [answer_send_ok hb' hsend' (hframe.seq.trans hq), ← hframe.txCmd, ← hframe.txLog, ← hframe.hostLog]
  rfl

/-! ### Lifecycle requests on the port -/

theorem acceptInit_replies (s : State) : (acceptInit s).replies = s.replies := by
  rw [acceptInit]
  split
  · split <;> rfl
  · rfl

theorem acceptDeinit_replies (s : State) : (acceptDeinit s).replies = s.replies := by
  rw [acceptDeinit]
  split <;> rfl

/-- Where no answer stands ready, an operation ends at its first call. -/
theorem settle_of_no_replies {s : State} (h : s.replies = []) : settle s = s := by
  rw [settle, h, settleWith, ← h]

/-- Settles O53: each request is accepted by the function that the operation starts with. -/
theorem portLifecycleRequests : Obligations.PortLifecycleRequests := by
  intro s
  refine ⟨fun hready hstate => ⟨?_, fun hr => ?_⟩, fun hready => ⟨clockEdge_accepts rfl rfl hready, fun hr => ?_,
    clockEdge_accepts rfl rfl hready⟩, fun hready hstate => ?_, fun hbusy i d => ?_⟩
  · rw [clockEdge_accepts rfl rfl hready]
    simp [acceptPins, hstate]
  · rw [exec_init_accepted hready hstate, settle_of_no_replies (by rw [acceptInit_replies, hr])]
  · rw [exec_deinit, execDeinit, if_pos hready, settle_of_no_replies (by rw [acceptDeinit_replies, hr])]
  · rw [clockEdge_accepts rfl rfl hready]
    simp [acceptPins, hstate]
  · rw [clockEdge_waits rfl rfl hbusy (answerPins_none rfl rfl rfl rfl rfl rfl), endRejection]

/-! ### A received byte on the port -/

/-- R158: FEED returns one result, and registers it. -/
theorem feed_result {b : Byte} {s t : State} (h : feed b s = .ok t) :
    ∃ r, t.feedLog = s.feedLog ++ [r] ∧ t.pulses.feedDone = some r := by
  rcases feed_continues_or_completes h with ⟨-, ht⟩ | ⟨-, rfl⟩
  · exact ⟨.cont, by rw [ht]; rfl, by rw [ht]; rfl⟩
  · exact ⟨_, dispatched_feedLog _ _ s.completed, by rw [dispatched_pulses]⟩

/-- R69: a received byte alone is one FEED, and the edge also ends a rejection. -/
theorem clockEdge_byte {b : Byte} {s t : State} (h : feed b s = .ok t) :
    clockEdge { rxValid := true, rxByte := b } s = .ok (endRejection t) := by
  simp only [clockEdge, h, Bool.false_eq_true, if_false, if_true]
  cases hready : cmdReady t with
  | true =>
    have hidle : acceptPins { rxValid := true, rxByte := b } t = t := rfl
    rw [if_pos rfl, hidle, endRejection_of_idle (cmdReady_iff.mp hready).1]
  | false => rw [if_neg (by simp), answerPins_none rfl rfl rfl rfl rfl rfl]

/-- R70, R226: the four outputs of a registered result. -/
theorem portOut_feedResult {s : State} {r : FeedResult} (h : s.pulses.feedDone = some r) :
    (portOut s).feedDone = true ∧ (portOut s).feedResult = feedCode r ∧
      ((portOut s).frameReady = true ↔ r = .frameReady) ∧ ((portOut s).frameError = true ↔ r = .frameError) := by
  simp only [portOut, shownPulses_run, h]
  simp

/-- R70: the four outputs where no result stands. -/
theorem portOut_noFeedResult {s : State} (h : s.pulses.feedDone = none) :
    (portOut s).feedDone = false ∧ (portOut s).feedResult = 0 ∧ (portOut s).frameReady = false ∧
      (portOut s).frameError = false := by
  simp only [portOut, shownPulses_run, h]
  decide

/-- R70: an edge without a received byte registers no result. -/
theorem clockEdge_feedDone {p : PortIn} {s u : State} (hx : p.rxValid = false) (hnone : s.pulses.feedDone = none)
    (h : clockEdge p s = .ok u) : u.pulses.feedDone = none := by
  rcases clockEdge_cases h with ⟨-, rfl⟩ | ⟨-, t, ht, hend⟩
  · rfl
  · rw [if_neg (ne_true_of_eq_false hx)] at ht
    cases ht
    rcases hend with ⟨-, rfl⟩ | ⟨-, a, -, rfl⟩ | ⟨-, -, rfl⟩
    · rw [acceptPins_feedDone, hnone]
    · rw [answer_feedDone, hnone]
    · exact hnone

/-- Settles O54: the registered result is FEED's, and it shows on the pins until an edge without a byte. -/
theorem portFeedResult : Obligations.PortFeedResult := by
  refine ⟨fun b s t h => ?_, fun p s u hx hnone h => portOut_noFeedResult (clockEdge_feedDone hx hnone h), statusOutputs_self,
    fun cap => cursorBits_spec, by decide⟩
  obtain ⟨r, hlog, hpulse⟩ := feed_result h
  obtain ⟨hdone, hresult, hready, herror⟩ := portOut_feedResult (s := endRejection t) hpulse
  exact ⟨r, endRejection t, hlog, clockEdge_byte h, rfl, hdone, by rw [hresult]; cases r <;> rfl, hready, herror,
    statusOutputs_self (endRejection t) false⟩

end Sys2Proof.Proofs
end

section
/-!
PROOFS. The capability and lifecycle ports (`20_memory.md` R72, `43_lifecycle.md`): each position of the sequencer on the pins.
-/

namespace Sys2Proof.Proofs

open Sys2Proof.Machine

/-! ### The outputs at each position -/

theorem portOut_hookInitReq {s : State} : (portOut s).hookInitReq = true ↔ s.seq = .initHook := decide_eq_true_iff

theorem portOut_hookDeinitReq {s : State} : (portOut s).hookDeinitReq = true ↔ s.seq = .deinitHook := decide_eq_true_iff

theorem delayReq_iff {s : State} :
    delayReq s = true ↔ s.seq = .initStabilize ∨ s.seq = .initAfterReset ∨ s.seq = .initAfterSelect := by
  simp [delayReq, or_assoc]

/-- R72: where no delay is requested there is no count. -/
theorem delayMs_eq_none {s : State} (h : delayReq s = false) : delayMs s = none := by
  cases hq : s.seq <;> simp_all [delayMs, delayReq]

/-- R72, R226: the pins after INIT or DEINIT has ended. -/
theorem portOut_ended (r : Status) (s : State) :
    (portOut (LifecycleEnded r s)).lifeDone = true ∧ (portOut (LifecycleEnded r s)).cmdReady = !s.txBusy ∧
      (portOut (LifecycleEnded r s)).lifeStatus = some (statusCode r) :=
  ⟨rfl, by simp [portOut, cmdReady, LifecycleEnded], rfl⟩

/-! ### The answers at each position -/

/-- A position is left only by an answer. -/
theorem clockEdge_position {p : PortIn} {s : State} {a : Answer} (hr : p.rst = false) (hx : p.rxValid = false)
    (hq : s.seq ≠ .idle) (ha : answerPins p s = some a) : clockEdge p s = .ok (answer a s) :=
  clockEdge_answers hr hx (not_cmdReady_of_seq hq) ha

/-- R72: an answered call has its answer on the pins, the nak first. -/
theorem exists_answer {ack nak : Bool} (h : Answered ack nak) :
    ∃ a : Answer, (if nak then some .fail else if ack then some .ok else none) = some a := by
  cases nak with
  | true => exact ⟨.fail, rfl⟩
  | false =>
    obtain rfl : ack = true := by simpa [Answered] using h
    exact ⟨.ok, rfl⟩

section Answers
variable {s : State} (hi : MachineInv s)
include hi

/-- R72: a position is held, and nothing is accepted, until its answer comes. -/
theorem clockEdge_unanswered {p : PortIn} (hp : p.Unanswered) (hq : s.seq ≠ .idle) : clockEdge p s = .ok s := by
  obtain ⟨hr, hx, hta, htn, hha, hhn, hda, hdn⟩ := hp
  have hrejection : endRejection s = s := by
    cases hb : s.txBusy with
    | false => exact endRejection_of_idle hb
    | true => exact endRejection_of_send ((hi.sequencer.1 hb).resolve_right hq)
  rw [clockEdge_waits hr hx (not_cmdReady_of_seq hq) (answerPins_none hta htn hha hhn hda hdn), hrejection]

/-- R204, R230 e: the hook's answer. -/
theorem clockEdge_initHook (hq : s.seq = .initHook) :
    clockEdge { hookAck := true } s = .ok { s with seq := .initStabilize, calls := s.calls ++ [.delay s.cfg.tStabilize] } ∧
      ∀ ack, clockEdge { hookAck := ack, hookNak := true } s = .ok (LifecycleEnded .transportError s) := by
  have hb : s.txBusy = false := by simp [txBusy_of_position hi, hq]
  have hne : s.seq ≠ .idle := by simp [hq]
  refine ⟨?_, fun ack => ?_⟩
  · rw [clockEdge_position (a := .ok) rfl rfl hne (by rw [answerPins_hook hb (.inl hq)]; rfl), Inv_answer_initHook_ok hi hq]
  · rw [clockEdge_position (a := .fail) rfl rfl hne (by rw [answerPins_hook hb (.inl hq)]; rfl), Inv_answer_initHook_fail hi hq]

/-- R210: either answer of a delay goes on as the position does with any answer. -/
theorem clockEdge_delay {ack nak : Bool} {t : State} (hanswered : Answered ack nak)
    (hq : s.seq = .initStabilize ∨ s.seq = .initAfterReset ∨ s.seq = .initAfterSelect) (h : ∀ a, answer a s = t) :
    clockEdge { delayAck := ack, delayNak := nak } s = .ok t := by
  have hb : s.txBusy = false := by rcases hq with hq | hq | hq <;> simp [txBusy_of_position hi, hq]
  have hne : s.seq ≠ .idle := by rcases hq with hq | hq | hq <;> simp [hq]
  obtain ⟨a, ha⟩ := exists_answer hanswered
  rw [clockEdge_position (a := a) rfl rfl hne (by rw [answerPins_delay hb hq]; exact ha), h]

/-- R208: so does either answer of the teardown hook. -/
theorem clockEdge_deinitHook {ack nak : Bool} (hanswered : Answered ack nak) (hq : s.seq = .deinitHook) :
    clockEdge { hookAck := ack, hookNak := nak } s = .ok (finishDeinit s) := by
  have hb : s.txBusy = false := by simp [txBusy_of_position hi, hq]
  obtain ⟨a, ha⟩ := exists_answer hanswered
  rw [clockEdge_position (a := a) rfl rfl (by simp [hq]) (by rw [answerPins_hook hb (.inr hq)]; exact ha),
    Inv_answer_deinitHook hi a hq]

/-- R68: a SEND of INIT is outstanding on the TX port. -/
theorem initSend_outstanding (hq : s.seq = .initReset ∨ s.seq = .initSelect) : s.txBusy = true ∧ s.cfg.hasSend = true := by
  rcases hq with hq | hq
  · exact ⟨by simp [txBusy_of_position hi, hq], hasSend_of_position hi (by simp [hq]) (by simp [hq])⟩
  · exact ⟨by simp [txBusy_of_position hi, hq], hasSend_of_position hi (by simp [hq]) (by simp [hq])⟩

/-- R68: its acknowledgement. -/
theorem clockEdge_initSend_ack (hq : s.seq = .initReset ∨ s.seq = .initSelect) :
    clockEdge { txAck := true } s = .ok (answer .ok s) := by
  obtain ⟨hb, hsend⟩ := initSend_outstanding hi hq
  exact clockEdge_answers rfl rfl (not_cmdReady_of_busy hb) (by rw [answerPins_handoff hb hsend]; rfl)

/-- R204, R230 e: its failure, with `tx_ack` raised or not. -/
theorem clockEdge_initSend_nak (hq : s.seq = .initReset ∨ s.seq = .initSelect) (ack : Bool) :
    clockEdge { txAck := ack, txNak := true } s = .ok (LifecycleEnded .transportError { s with txBusy := false }) := by
  obtain ⟨hb, hsend⟩ := initSend_outstanding hi hq
  rw [clockEdge_answers (a := .fail) rfl rfl (not_cmdReady_of_busy hb) (by rw [answerPins_handoff hb hsend]; rfl),
    Inv_answer_initSend_fail hi hq]

end Answers

/-- Settles O60: the outputs are functions of the position, and each answer pin goes to the answer of that position. -/
theorem portCapabilityHandshake : Obligations.PortCapabilityHandshake := by
  intro s hi
  refine ⟨portOut_hookInitReq, portOut_hookDeinitReq, delayReq_iff, fun hq => ?_, fun hq => ?_, fun hq => ?_, delayMs_eq_none,
    fun hq => txValid_iff.mpr (initSend_outstanding hi hq), fun p hp hq => clockEdge_unanswered hi hp hq, clockEdge_initHook hi,
    fun ack nak hanswered => ⟨fun hq => ?_, fun hq => ?_, fun hq => ?_, fun hq => ?_⟩, fun hq => ?_, fun hq => ?_,
    clockEdge_initSend_nak hi, fun r => ?_, fun hnone => ?_⟩
  · simp only [portOut, delayMs, hq]
  · simp only [portOut, delayMs, hq]
  · simp only [portOut, delayMs, hq]
  · exact clockEdge_delay hi hanswered (.inl hq) fun a => Inv_answer_initStabilize hi a hq
  · exact clockEdge_delay hi hanswered (.inr (.inl hq)) fun a => Inv_answer_initAfterReset hi a hq
  · exact clockEdge_delay hi hanswered (.inr (.inr hq)) fun a => Inv_answer_initAfterSelect hi a hq
  · exact clockEdge_deinitHook hi hanswered hq
  · rw [clockEdge_initSend_ack hi (.inl hq), Inv_answer_initReset_ok hi hq]
  · rw [clockEdge_initSend_ack hi (.inr hq), Inv_answer_initSelect_ok hi hq]
  · obtain ⟨hdone, hready, hstatus⟩ := portOut_ended r s
    exact ⟨hdone, hready, by rw [hstatus]; cases r <;> rfl⟩
  · simp [portOut, hnone]

end Sys2Proof.Proofs
end
